-- ==== Sys2Proof/Word.lean ====
section
/-! DEFINITION. The word types of DPD (spec/00_scope.md R5, "Fixed widths"). -/

namespace Sys2Proof

/-- The stimulus word of one cycle, 128 bits (30_encoding.md R90). -/
abbrev Word := BitVec 128

/-- A report, 40 bits with byte `k` at bits `8k+7:8k` (30_encoding.md R80, 20_memory.md R61). -/
abbrev Report := BitVec 40

/-- The 32-bit data of the register port (10_state.md R35). -/
abbrev RegWord := BitVec 32

end Sys2Proof
end

