-- ==== Sys2Proof/Config.lean ====
section
/-! DEFINITION. What an implementation fixes (the build parameters of 00_scope.md R5) and the free values. -/

namespace Sys2Proof

/-- The build parameters of 00_scope.md R5. The widths give the upper bounds of R5 (`CAP <= 255`,
`CLK_PER_MS <= 16777215`, and so on); the lower bounds `1 <= CAP` and `1 <= CLK_PER_MS` are `Params.WF`. -/
structure Params where
  /-- `CAP`, the delivery queue's capacity in reports. -/
  cap : BitVec 8
  /-- `CLK_PER_MS`, clock cycles per millisecond. -/
  clkPerMs : BitVec 24
  /-- `P_HOLD_MS`, the reset value of HOLD.HOLD_MS. -/
  pHoldMs : BitVec 16
  /-- `P_TILT_BIT`, the reset value of CTRL.TILT_BIT. -/
  pTiltBit : BitVec 4
  /-- `P_TILT_LVL_INV`, the reset value of CTRL.TILT_LVL_INV. -/
  pTiltLvlInv : Bool
  deriving DecidableEq, Repr

/-- The parameters `State.reset` is built with. `CAP = 5` is the default of 00_scope.md R5. The other four are OPEN in
R5 (93_implementation_defined.md I2); their values here are those the vectors of 95_test_vectors.md take ("a choice made
for the vector, not a property of the block"). DESIGN CHOICE, unsafe: notes/assumptions/7.md. The parameters are
plain data of the state, so what is said about steps is said for every value of them. -/
def Config.params : Params :=
  { cap := 5, clkPerMs := 1, pHoldMs := 3, pTiltBit := 15, pTiltLvlInv := false }

/-- FREE VALUE. The stimulus word the environment drives in cycle `n` where the model is given none: the agents of
40_cycle.md R116 may drive any word in any cycle. DESIGN CHOICE, safe: notes/assumptions/2.md. -/
opaque Config.envStimulus : Nat → Word

/-- FREE VALUE. The TiltBit for the TiltState code `11` in cycle `n`: "treat the TiltBit as `any value`"
(93_implementation_defined.md I4). Safe: notes/assumptions/8.md. -/
opaque Config.tiltBitOfCode11 : Nat → Bool

end Sys2Proof
end

