-- ==== Sys2Proof/Syntax.lean ====
section
/-! DEFINITION. The fields of the stimulus word as records, and `Instr`: the 29 operations of 30_encoding.md R92. -/

namespace Sys2Proof

/-- The producer's GamepadState, the four stimulus fields of 30_encoding.md R82. -/
structure Gamepad where
  /-- `BTN`: active-high button bits, before the tilt bit is composed and before inversion. -/
  btn : BitVec 16
  /-- `AX`: axis_x. -/
  ax : BitVec 8
  /-- `AY`: axis_y. -/
  ay : BitVec 8
  /-- `AUX`: the auxiliary axis. -/
  aux : BitVec 8
  deriving DecidableEq, Repr

/-- The stimulus word as a record of its fields (30_encoding.md R90: "A Lean model may take the stimulus as a record with
these fields instead of a word"). -/
structure Stim where
  /-- `RST`, bit 0. -/
  rst : Bool
  /-- `TILT_IN`, bit 1. -/
  tiltIn : Bool
  /-- `IN_VALID`, bit 2. -/
  inValid : Bool
  /-- `TX_DONE`, bit 3. -/
  txDone : Bool
  /-- `TX_OK`, bit 4. -/
  txOk : Bool
  /-- `CFG_WE`, bit 5. -/
  cfgWe : Bool
  /-- `CFG_IDX`, bits 10:8. -/
  cfgIdx : BitVec 3
  /-- `BTN`, `AX`, `AY`, `AUX`, bits 31:16, 39:32, 47:40 and 55:48. -/
  pad : Gamepad
  /-- `CFG_WDATA`, bits 95:64. -/
  cfgWdata : RegWord
  deriving DecidableEq, Repr

/-- The operations of DPD, one constructor per row of spec/opcode_table.json (30_encoding.md R92). Operands are the
word's fields that the operation's rule names under "Operands". Every operand has exactly its field's width, so every
term is well formed. -/
inductive Instr where
  /-- RESET (R260). -/
  | reset
  /-- CFG_READ (R220). -/
  | cfgRead (idx : BitVec 3)
  /-- CFG_WR_CTRL (R221). -/
  | cfgWrCtrl (wdata : RegWord)
  /-- CFG_WR_HOLD (R222). -/
  | cfgWrHold (wdata : RegWord)
  /-- CFG_WR_STATUS (R223). -/
  | cfgWrStatus (wdata : RegWord)
  /-- CFG_WR_PARAM (R223). -/
  | cfgWrParam (wdata : RegWord)
  /-- CFG_WR_LAST_LO (R223). -/
  | cfgWrLastLo (wdata : RegWord)
  /-- CFG_WR_LAST_HI (R223). -/
  | cfgWrLastHi (wdata : RegWord)
  /-- CFG_WR_RSVD6 (R223). -/
  | cfgWrRsvd6 (wdata : RegWord)
  /-- CFG_WR_RSVD7 (R223). -/
  | cfgWrRsvd7 (wdata : RegWord)
  /-- DB_SAMPLE (R130). -/
  | dbSample (tiltIn : Bool)
  /-- DB_QUIET (R139). -/
  | dbQuiet (tiltIn : Bool)
  /-- DB_EDGE_ARM (R132). -/
  | dbEdgeArm (tiltIn : Bool)
  /-- DB_EDGE_IMM (R134). -/
  | dbEdgeImm (tiltIn : Bool)
  /-- DB_EDGE_MASKED (R133). -/
  | dbEdgeMasked (tiltIn : Bool)
  /-- DB_COUNT (R135). -/
  | dbCount (tiltIn : Bool)
  /-- DB_EXPIRE_CONFIRM (R136). -/
  | dbExpireConfirm (tiltIn : Bool)
  /-- DB_EXPIRE_DISCARD (R137). -/
  | dbExpireDiscard (tiltIn : Bool)
  /-- PACK (R164). -/
  | pack (pad : Gamepad)
  /-- ENQ (R181): its operands are the report PACK left and the queue after the dequeue. -/
  | enq
  /-- ENQ_PURGE (R182): operands as for ENQ. -/
  | enqPurge
  /-- DEQ (R183). -/
  | deq
  /-- SND_EMPTY (R206). -/
  | sndEmpty
  /-- SND_FETCH_DUP (R200). -/
  | sndFetchDup
  /-- SND_FETCH_NEW (R201). -/
  | sndFetchNew
  /-- SND_WAIT (R202). -/
  | sndWait
  /-- SND_DONE_OK (R203). -/
  | sndDoneOk
  /-- SND_DONE_FAIL (R204). -/
  | sndDoneFail
  /-- SND_DONE_IGNORED (R205). -/
  | sndDoneIgnored (txOk : Bool)
  deriving DecidableEq, Repr

end Sys2Proof
end

