-- ==== Sys2Proof/WellFormed.lean ====
section
/-! DEFINITION. The checks on data that the types do not make. Terms of `Instr` need none (each operand has exactly its
field's width). -/

namespace Sys2Proof

/-- The lower bounds of 00_scope.md R5: `1 <= CAP` and `1 <= CLK_PER_MS` (the widths give the upper bounds). -/
abbrev Params.WF (p : Params) : Prop := 1 ≤ p.cap.toNat ∧ 1 ≤ p.clkPerMs.toNat

/-- The reserved bits of the stimulus word, 7:6, 15:11, 63:56 and 127:96 (30_encoding.md R93). -/
def reservedBits : Word := 0xffffffff00000000ff0000000000f8c0#128

/-- A trace checker "may refuse a word whose reserved bits are not 0, but the hardware does not" (30_encoding.md R93,
93_implementation_defined.md I6): this is that checker's test. No step of the machine asks it. -/
def reservedClear (w : Word) : Bool := w &&& reservedBits == 0#128

end Sys2Proof
end

