-- ==== Sys2Proof/Decode.lean ====
section
/-! DEFINITION. From a stimulus word to the operations it selects (30_encoding.md R90 to R96), and back. -/

namespace Sys2Proof

/-! ### Decoding -/

/-- The fields of a stimulus word, `w.F = w[hi:lo]` (30_encoding.md R90, R91). Reserved bits are not read (R93). -/
def Stim.ofWord (w : Word) : Stim where
  rst := w.getLsbD 0
  tiltIn := w.getLsbD 1
  inValid := w.getLsbD 2
  txDone := w.getLsbD 3
  txOk := w.getLsbD 4
  cfgWe := w.getLsbD 5
  cfgIdx := w.extractLsb' 8 3
  pad :=
    { btn := w.extractLsb' 16 16
      ax := w.extractLsb' 32 8
      ay := w.extractLsb' 40 8
      aux := w.extractLsb' 48 8 }
  cfgWdata := w.extractLsb' 64 32

/-- A row's stimulus pattern `mask → match` over `w[10:0]` (30_encoding.md R92). -/
structure Pattern where
  mask : BitVec 11
  value : BitVec 11
  deriving DecidableEq, Repr

/-- The word meets the pattern: its bits 10:0 under the mask are the match (30_encoding.md R92). -/
def Pattern.accepts (p : Pattern) (w : Word) : Bool := w.extractLsb' 0 11 &&& p.mask == p.value

/-- The pattern column of the operation map (30_encoding.md R92). -/
def Instr.pattern : Instr → Pattern
  | .reset => ⟨0x001, 0x001⟩
  | .cfgRead _ => ⟨0x000, 0x000⟩
  | .cfgWrCtrl _ => ⟨0x721, 0x020⟩
  | .cfgWrHold _ => ⟨0x721, 0x120⟩
  | .cfgWrStatus _ => ⟨0x721, 0x220⟩
  | .cfgWrParam _ => ⟨0x721, 0x320⟩
  | .cfgWrLastLo _ => ⟨0x721, 0x420⟩
  | .cfgWrLastHi _ => ⟨0x721, 0x520⟩
  | .cfgWrRsvd6 _ => ⟨0x721, 0x620⟩
  | .cfgWrRsvd7 _ => ⟨0x721, 0x720⟩
  | .dbSample _ => ⟨0x001, 0x000⟩
  | .dbQuiet _ => ⟨0x001, 0x000⟩
  | .dbEdgeArm _ => ⟨0x001, 0x000⟩
  | .dbEdgeImm _ => ⟨0x001, 0x000⟩
  | .dbEdgeMasked _ => ⟨0x001, 0x000⟩
  | .dbCount _ => ⟨0x001, 0x000⟩
  | .dbExpireConfirm _ => ⟨0x001, 0x000⟩
  | .dbExpireDiscard _ => ⟨0x001, 0x000⟩
  | .pack _ => ⟨0x005, 0x004⟩
  | .enq => ⟨0x005, 0x004⟩
  | .enqPurge => ⟨0x005, 0x004⟩
  | .deq => ⟨0x001, 0x000⟩
  | .sndEmpty => ⟨0x001, 0x000⟩
  | .sndFetchDup => ⟨0x001, 0x000⟩
  | .sndFetchNew => ⟨0x001, 0x000⟩
  | .sndWait => ⟨0x009, 0x000⟩
  | .sndDoneOk => ⟨0x019, 0x018⟩
  | .sndDoneFail => ⟨0x019, 0x008⟩
  | .sndDoneIgnored _ => ⟨0x009, 0x008⟩

/-- All 29 operations with the operands that the word holds for them, in the order of 40_cycle.md R111: reset (1), register
port (2), debounce (3), pack (4), sender and dequeue (5), enqueue (6). -/
def Stim.operations (f : Stim) : List Instr :=
  [ .reset,
    .cfgRead f.cfgIdx, .cfgWrCtrl f.cfgWdata, .cfgWrHold f.cfgWdata, .cfgWrStatus f.cfgWdata, .cfgWrParam f.cfgWdata,
    .cfgWrLastLo f.cfgWdata, .cfgWrLastHi f.cfgWdata, .cfgWrRsvd6 f.cfgWdata, .cfgWrRsvd7 f.cfgWdata,
    .dbSample f.tiltIn, .dbQuiet f.tiltIn, .dbEdgeArm f.tiltIn, .dbEdgeImm f.tiltIn, .dbEdgeMasked f.tiltIn,
    .dbCount f.tiltIn, .dbExpireConfirm f.tiltIn, .dbExpireDiscard f.tiltIn,
    .pack f.pad,
    .deq, .sndEmpty, .sndFetchDup, .sndFetchNew, .sndWait, .sndDoneOk, .sndDoneFail, .sndDoneIgnored f.txOk,
    .enq, .enqPurge ]

/-- The operations a stimulus word selects, in the order in which a cycle runs them (30_encoding.md R92, 40_cycle.md R111).
It is total: all `2^128` words are legal (R94), and there is one word length (R96). -/
def decode (w : Word) : List Instr :=
  (Stim.ofWord w).operations.filter fun i => i.pattern.accepts w

/-- The reasons a bit string is no stimulus word. -/
inductive DecodeError where
  /-- It does not fit the 128 bits of a stimulus word (30_encoding.md R96). -/
  | notOneWord
  deriving DecidableEq, Repr

/-- Reads `nbits` bits of value `v` as a stimulus word whose further bits are 0. It rejects what does not fit the one word
length of 30_encoding.md R96; every word it reads is legal (R94). -/
def readWord (nbits v : Nat) : Except DecodeError Word :=
  if nbits ≤ 128 ∧ v < 2 ^ nbits then .ok (BitVec.ofNat 128 v) else .error .notOneWord

/-- How many bits a row's mask tests. -/
def Instr.tested (i : Instr) : Nat := ((List.range 11).filter fun k => i.pattern.mask.getLsbD k).length

/-- The most specific operation of a list: the one whose row tests the most bits, the first of these in the list. -/
def mostSpecific : List Instr → Option Instr
  | [] => none
  | i :: rest =>
    match mostSpecific rest with
    | none => some i
    | some j => if i.tested < j.tested then some j else some i

/-- The ONE operation answered for a table word. A word selects several operations and many rows of the table share a
pattern (30_encoding.md R92: "A stimulus word does not select exactly one operation"), so this answers the most specific
row the word meets. DESIGN CHOICE: notes/assumptions/11.md. The machine does not use it: a step runs all of `decode`. -/
def decodeTableWord (nbits w : Nat) : Option Instr :=
  match readWord nbits w with
  | .ok word => mostSpecific (decode word)
  | .error _ => none

/-! ### Encoding -/

/-- One bit as a 1-bit vector. -/
def bit (b : Bool) : BitVec 1 := BitVec.ofBool b

/-- The stimulus word with the given fields and reserved bits 0: `w = {rsv32, CFG_WDATA, rsv8, AUX, AY, AX, BTN, rsv5,
CFG_IDX, rsv2, CFG_WE, TX_OK, TX_DONE, IN_VALID, TILT_IN, RST}` (30_encoding.md R90). -/
def Stim.toWord (f : Stim) : Word :=
  0#32 ++ f.cfgWdata ++ 0#8 ++ f.pad.aux ++ f.pad.ay ++ f.pad.ax ++ f.pad.btn ++ 0#5 ++ f.cfgIdx ++ 0#2 ++ bit f.cfgWe ++
    bit f.txOk ++ bit f.txDone ++ bit f.inValid ++ bit f.tiltIn ++ bit f.rst

/-- The record of the all-zero word. -/
def Stim.zero : Stim :=
  { rst := false, tiltIn := false, inValid := false, txDone := false, txOk := false, cfgWe := false, cfgIdx := 0,
    pad := { btn := 0, ax := 0, ay := 0, aux := 0 }, cfgWdata := 0 }

/-- The fields of the word in which an operation's operands stand; every other field 0. -/
def Instr.operandFields : Instr → Stim
  | .cfgRead idx => { Stim.zero with cfgIdx := idx }
  | .cfgWrCtrl d | .cfgWrHold d | .cfgWrStatus d | .cfgWrParam d | .cfgWrLastLo d | .cfgWrLastHi d | .cfgWrRsvd6 d
  | .cfgWrRsvd7 d => { Stim.zero with cfgWdata := d }
  | .dbSample l | .dbQuiet l | .dbEdgeArm l | .dbEdgeImm l | .dbEdgeMasked l | .dbCount l | .dbExpireConfirm l
  | .dbExpireDiscard l => { Stim.zero with tiltIn := l }
  | .pack g => { Stim.zero with pad := g }
  | .sndDoneIgnored ok => { Stim.zero with txOk := ok }
  | .reset | .enq | .enqPurge | .deq | .sndEmpty | .sndFetchDup | .sndFetchNew | .sndWait | .sndDoneOk | .sndDoneFail =>
    Stim.zero

/-- A word that selects the operation with its operands: the row's match bits and the operand fields (30_encoding.md R90,
R92), every other bit 0. -/
def encode (i : Instr) : Word := i.pattern.value.setWidth 128 ||| i.operandFields.toWord

end Sys2Proof
end

