-- ==== Sys2Proof/Machine/State.lean ====
section
/-! DEFINITION. The state of DPD as plain data (spec/10_state.md), the reasons a step can stop, and reset. -/

namespace Sys2Proof.Machine

/-- `db_state` (10_state.md R22). -/
inductive DbState where
  /-- 0: no pending confirmation. -/
  | idle
  /-- 1: timer armed, awaiting confirmation. -/
  | holding
  deriving DecidableEq, Repr

/-- `snd_state` (10_state.md R29). -/
inductive SndState where
  /-- 0: blocked on dequeue. -/
  | idle
  /-- 1: a transport write is in flight. -/
  | tx
  deriving DecidableEq, Repr

/-- `tilt_state`, a 2-bit cell (10_state.md R27). The code `11` is never written; before the first reset the cell may hold
it (93_implementation_defined.md I1, I4). -/
inductive TiltState where
  /-- `00`. -/
  | unknown
  /-- `01`. -/
  | flat
  /-- `10`. -/
  | tilted
  /-- `11`. -/
  | code11
  deriving DecidableEq, Repr

/-- The stored fields of CTRL (10_state.md R36). Its reserved bits are not stored: they read 0 and ignore writes. -/
structure Ctrl where
  /-- INV_EN, bit 0. -/
  invEn : Bool
  /-- TILT_BIT_POL, bit 1. -/
  tiltBitPol : Bool
  /-- UNK_AS_TILTED, bit 2. -/
  unkAsTilted : Bool
  /-- TILT_LVL_INV, bit 3. -/
  tiltLvlInv : Bool
  /-- TILT_BIT, bits 11:8. -/
  tiltBit : BitVec 4
  deriving DecidableEq, Repr

/-- The specification's fields (10_state.md sections 2 to 5): what `S` is in the rules. -/
structure Regs where
  /-- `db_state` (R22). -/
  dbState : DbState
  /-- `hold_cnt` (R23), "wide enough for `0 .. 65535*CLK_PER_MS - 1`": a number, which only ever counts down
  (notes/assumptions/13.md). -/
  holdCnt : Nat
  /-- `lvl_prev` (R24). -/
  lvlPrev : Bool
  /-- `primed` (R25). -/
  primed : Bool
  /-- `conf_known` (R26). -/
  confKnown : Bool
  /-- `conf_lvl` (R26). -/
  confLvl : Bool
  /-- `tilt_state` (R27). -/
  tiltState : TiltState
  /-- `tilt_chg_valid` (R33). -/
  tiltChgValid : Bool
  /-- `tilt_chg_tilted` (R33). -/
  tiltChgTilted : Bool
  /-- `q`, oldest first (R28). -/
  q : List Report
  /-- `snd_state` (R29). -/
  sndState : SndState
  /-- `snd_cur` (R30). -/
  sndCur : Report
  /-- `last_sent` (R31). -/
  lastSent : Report
  /-- CTRL (R36). -/
  ctrl : Ctrl
  /-- HOLD.HOLD_MS (R37). -/
  holdMs : BitVec 16
  deriving DecidableEq, Repr

/-- The machine. `now` is the rules' `S`, the state at the start of the cycle; `nxt` is the rules' `S'`, into which the
operations of the cycle write (00_scope.md R8). Between cycles the two are equal. -/
structure State where
  /-- The build parameters (00_scope.md R5), which PARAM shows (10_state.md R39). No operation writes them (R6). -/
  params : Params
  /-- `S`. -/
  now : Regs
  /-- `S'` as written so far in this cycle (notes/assumptions/3.md). -/
  nxt : Regs
  /-- MODEL's own: `q1`, the queue after this cycle's dequeue (40_cycle.md R111 step 5; notes/assumptions/4.md). -/
  q1 : List Report
  /-- MODEL's own: `r`, the report PACK hands to the enqueue (40_cycle.md R111 step 4; notes/assumptions/4.md). -/
  r : Option Report
  /-- MODEL's own: the value driven on the output port CFG_RDATA in the cycle (10_state.md R34; notes/assumptions/5.md). -/
  rdata : RegWord
  /-- MODEL's own: the stimulus words of the cycles to come, the next first (40_cycle.md R115; notes/assumptions/1.md). -/
  stim : List Word
  /-- MODEL's own: counts cycles; only the free values read it (notes/assumptions/6.md). -/
  cycle : Nat
  deriving DecidableEq, Repr

/-- The faults of DPD: none. "DPD raises no synchronous exception. It has no cause codes" (60_exceptions.md R240), so this
type has no value: that a step never faults holds by its type. -/
inductive Fault
  deriving DecidableEq, Repr

/-- The refusals of the model. -/
inductive Refusal where
  /-- An operation that has no meaning in `exec`. Raised by no arm: every operation has its meaning. Safe. -/
  | notModelled (mnemonic : String)
  deriving DecidableEq, Repr

/-- `RESET_STATE`, every field at its value of 10_state.md R45. It depends on the build parameters alone (R261). -/
def Regs.reset (p : Params) : Regs where
  dbState := .idle
  holdCnt := 0
  lvlPrev := false
  primed := false
  confKnown := false
  confLvl := false
  tiltState := .unknown
  tiltChgValid := false
  tiltChgTilted := false
  q := []
  sndState := .idle
  sndCur := 0
  lastSent := 0
  ctrl :=
    { invEn := true, tiltBitPol := false, unkAsTilted := false, tiltLvlInv := p.pTiltLvlInv, tiltBit := p.pTiltBit }
  holdMs := p.pHoldMs

/-- The machine built with parameters `p`, right after a reset cycle, with no stimulus word placed. -/
def State.resetWith (p : Params) : State where
  params := p
  now := Regs.reset p
  nxt := Regs.reset p
  q1 := []
  r := none
  rdata := 0
  stim := []
  cycle := 0

/-- The machine right after reset (10_state.md R45), built with `Config.params`. -/
def State.reset : State := State.resetWith Config.params

end Sys2Proof.Machine
end

