-- ==== Sys2Proof/Machine/Operands.lean ====
section
/-! DEFINITION. The operands that the operations read from `S` and the word: the edge, the hold length, the comparison with
the confirmed level, the head of the queue (spec/41_debounce.md R130, R131, 10_state.md R26, 43_queue.md R180). -/

namespace Sys2Proof.Machine

/-- `CAP` as a number (00_scope.md R5). -/
def capacity (p : Params) : Nat := p.cap.toNat

/-- `edge = (S.primed == 1) and (l != S.lvl_prev)` (41_debounce.md R130). -/
def edge (S : Regs) (l : Bool) : Bool := S.primed && (l != S.lvlPrev)

/-- `N = S.HOLD.HOLD_MS * CLK_PER_MS`, exact (41_debounce.md R131). -/
def holdLen (p : Params) (S : Regs) : Nat := S.holdMs.toNat * p.clkPerMs.toNat

/-- `differs(l, conf)`: `conf_known = 0` or `conf_lvl != l` (10_state.md R26). -/
def differs (S : Regs) (l : Bool) : Bool := !S.confKnown || (S.confLvl != l)

/-- The level-to-tilted mapping `t = l ^ S.CTRL.TILT_LVL_INV` (10_state.md R36, 41_debounce.md R138). -/
def tiltedOf (S : Regs) (l : Bool) : Bool := l ^^ S.ctrl.tiltLvlInv

/-- `QHead(q) = head(q)`, defined only if `len(q) > 0` (43_queue.md R180). -/
def qHead (q : List Report) : Option Report := q.head?

/-- `QPop(q) = tail(q)` (43_queue.md R180; used only if `len(q) > 0`). -/
def qPop (q : List Report) : List Report := q.tail

/-- `QPush(q, r) = q ++ [r]` (43_queue.md R180). -/
def qPush (q : List Report) (r : Report) : List Report := q ++ [r]

/-- `QPurge(q) = []` (43_queue.md R180). -/
def qPurge (_q : List Report) : List Report := []

end Sys2Proof.Machine
end

