-- ==== Sys2Proof/Machine/Conditions.lean ====
section
/-! DEFINITION. The "state condition" and "group" columns of the operation map (30_encoding.md R92). Every condition reads `S`
(and, for the enqueue, the `q1` and `r` of 40_cycle.md R111 steps 4 and 5). -/

namespace Sys2Proof.Machine

/-- `S.db_state = Idle`. -/
def isIdle (s : State) : Bool := s.now.dbState == .idle

/-- `S.db_state = Holding`. -/
def isHolding (s : State) : Bool := s.now.dbState == .holding

/-- `S.snd_state = IDLE`. -/
def senderFree (s : State) : Bool := s.now.sndState == .idle

/-- `S.snd_state = TX`. -/
def senderBusy (s : State) : Bool := s.now.sndState == .tx

/-- Idle, not edge (R139). -/
def mayQuiet (l : Bool) (s : State) : Bool := isIdle s && !edge s.now l

/-- Idle, edge, `N >= 1` (R132). -/
def mayArm (l : Bool) (s : State) : Bool := isIdle s && edge s.now l && decide (1 ≤ holdLen s.params s.now)

/-- Idle, edge, `N = 0` (R134). -/
def mayDispatchNow (l : Bool) (s : State) : Bool := isIdle s && edge s.now l && holdLen s.params s.now == 0

/-- Holding, edge, `hold_cnt != 0` (R92's row for R133). -/
def mayMask (l : Bool) (s : State) : Bool := isHolding s && edge s.now l && s.now.holdCnt != 0

/-- Holding, `hold_cnt != 0` (R135). -/
def mayCount (s : State) : Bool := isHolding s && s.now.holdCnt != 0

/-- Holding, `hold_cnt = 0`, `differs(TILT_IN, conf)` (R136). -/
def mayConfirm (l : Bool) (s : State) : Bool := isHolding s && s.now.holdCnt == 0 && differs s.now l

/-- Holding, `hold_cnt = 0`, not `differs(TILT_IN, conf)` (R137). -/
def mayDiscard (l : Bool) (s : State) : Bool := isHolding s && s.now.holdCnt == 0 && !differs s.now l

/-- A report was packed, and `len(q1) < CAP` (R181). -/
def mayEnqueue (s : State) : Bool := s.r.isSome && decide (s.q1.length < capacity s.params)

/-- A report was packed, and the queue has no room: `len(q1) = CAP` (R182), the `else` of 40_cycle.md R113
(notes/assumptions/9.md). -/
def mayPurge (s : State) : Bool := s.r.isSome && !decide (s.q1.length < capacity s.params)

/-- snd IDLE, `len(S.q) > 0` (R183). -/
def mayDequeue (s : State) : Bool := senderFree s && !s.now.q.isEmpty

/-- snd IDLE, `len(S.q) = 0` (R206). -/
def mayStayEmpty (s : State) : Bool := senderFree s && s.now.q.isEmpty

/-- snd IDLE, `len(S.q) > 0`, `head(S.q) = last_sent` (R200). -/
def mayDiscardDup (s : State) : Bool := mayDequeue s && qHead s.now.q == some s.now.lastSent

/-- snd IDLE, `len(S.q) > 0`, `head(S.q) != last_sent` (R201). -/
def mayFetchNew (s : State) : Bool := mayDequeue s && qHead s.now.q != some s.now.lastSent

/-- The condition column of the operation map (30_encoding.md R92). -/
def condition (i : Instr) (s : State) : Bool :=
  match i with
  | .reset | .cfgRead _ | .cfgWrCtrl _ | .cfgWrHold _ | .cfgWrStatus _ | .cfgWrParam _ | .cfgWrLastLo _
  | .cfgWrLastHi _ | .cfgWrRsvd6 _ | .cfgWrRsvd7 _ | .dbSample _ | .pack _ => true
  | .dbQuiet l => mayQuiet l s
  | .dbEdgeArm l => mayArm l s
  | .dbEdgeImm l => mayDispatchNow l s
  | .dbEdgeMasked l => mayMask l s
  | .dbCount _ => mayCount s
  | .dbExpireConfirm l => mayConfirm l s
  | .dbExpireDiscard l => mayDiscard l s
  | .enq => mayEnqueue s
  | .enqPurge => mayPurge s
  | .deq => mayDequeue s
  | .sndEmpty => mayStayEmpty s
  | .sndFetchDup => mayDiscardDup s
  | .sndFetchNew => mayFetchNew s
  | .sndWait | .sndDoneOk | .sndDoneFail => senderBusy s
  | .sndDoneIgnored _ => senderFree s

/-- The groups of the operation map (30_encoding.md R92). -/
inductive Group where
  | reset | regRead | regWrite | debounceSample | debounce | debounceMask | pack | enqueue | dequeue | sender | senderIgnore
  deriving DecidableEq, Repr

/-- The group column of the operation map (30_encoding.md R92). -/
def group : Instr → Group
  | .reset => .reset
  | .cfgRead _ => .regRead
  | .cfgWrCtrl _ | .cfgWrHold _ | .cfgWrStatus _ | .cfgWrParam _ | .cfgWrLastLo _ | .cfgWrLastHi _ | .cfgWrRsvd6 _
  | .cfgWrRsvd7 _ => .regWrite
  | .dbSample _ => .debounceSample
  | .dbQuiet _ | .dbEdgeArm _ | .dbEdgeImm _ | .dbCount _ | .dbExpireConfirm _ | .dbExpireDiscard _ => .debounce
  | .dbEdgeMasked _ => .debounceMask
  | .pack _ => .pack
  | .enq | .enqPurge => .enqueue
  | .deq => .dequeue
  | .sndEmpty | .sndFetchDup | .sndFetchNew | .sndWait | .sndDoneOk | .sndDoneFail => .sender
  | .sndDoneIgnored _ => .senderIgnore

end Sys2Proof.Machine
end

