-- ==== Sys2Proof/Machine/Flags.lean ====
section
/-! DEFINITION. The status flags. DPD has no condition codes and no arithmetic flags (10_state.md R43); its flags are the
fields of STATUS, copies of the state fields (R38). -/

namespace Sys2Proof.Machine

/-- 0 Idle, 1 Holding (10_state.md R22). -/
def DbState.code : DbState → BitVec 1
  | .idle => 0
  | .holding => 1

/-- 0 IDLE, 1 TX (10_state.md R29). -/
def SndState.code : SndState → BitVec 1
  | .idle => 0
  | .tx => 1

/-- 00 UNKNOWN, 01 FLAT, 10 TILTED, 11 the code no rule writes (10_state.md R27). -/
def TiltState.code : TiltState → BitVec 2
  | .unknown => 0b00
  | .flat => 0b01
  | .tilted => 0b10
  | .code11 => 0b11

/-- `zext_8(len(S.q))`, the field STATUS.Q_COUNT and the port Q_COUNT (10_state.md R34, R38). -/
def queueCount (S : Regs) : BitVec 8 := BitVec.ofNat 8 S.q.length

/-- STATUS (10_state.md R38, 45_register_port.md R220). -/
def statusWord (S : Regs) : RegWord :=
  0#16 ++ queueCount S ++ bit S.tiltChgTilted ++ bit S.tiltChgValid ++ bit S.confLvl ++ bit S.confKnown ++
    S.tiltState.code ++ S.sndState.code ++ S.dbState.code

end Sys2Proof.Machine
end

