-- ==== Sys2Proof/Machine/Ops.lean ====
section
/-! DEFINITION. The shared operations over the state. DPD has no byte-addressed memory (20_memory.md) and raises no
exception, takes no trap and returns from none (60_exceptions.md R240, R244, R245), so there is no operation for these. -/

namespace Sys2Proof.Machine

/-! ### The frame of a cycle -/

/-- The stimulus word of this cycle: the next one placed, or, with none placed, whatever the environment drives. -/
def State.word (s : State) : Word :=
  match s.stim with
  | w :: _ => w
  | [] => Config.envStimulus s.cycle

/-- `S'` starts as `S` ("a field that no operation writes in a cycle keeps its value", 00_scope.md R8), `q1` as `S.q`, and
no report is packed yet. -/
def State.settle (s : State) : State := { s with nxt := s.now, q1 := s.now.q, r := none }

/-- The end of a cycle: every write becomes visible together (20_memory.md R68), and the word is consumed. -/
def State.endCycle (s : State) : State :=
  State.settle { s with now := s.nxt, stim := s.stim.tail, cycle := s.cycle + 1 }

/-- Writes fields of `S'` (`f' <- v`, 00_scope.md R8). -/
def State.writeNext (f : Regs → Regs) (s : State) : State := { s with nxt := f s.nxt }

/-- An operation runs where its state condition holds; where it does not, the operation is not enabled and changes nothing
(30_encoding.md R92; notes/assumptions/10.md). No operation faults or refuses (60_exceptions.md R240). -/
def State.runIf (c : Bool) (f : State → State) (s : State) : Host.Outcome State Fault Refusal :=
  .next (if c then f s else s)

/-! ### Reset -/

/-- `S' <- RESET_STATE` (70_reset_and_hazards.md R260). -/
def State.takeReset (s : State) : State := s.writeNext fun _ => Regs.reset s.params

/-! ### The register port -/

/-- CTRL as read: `{20'b0, TILT_BIT, 4'b0, TILT_LVL_INV, UNK_AS_TILTED, TILT_BIT_POL, INV_EN}` (45_register_port.md R220). -/
def ctrlImage (c : Ctrl) : RegWord :=
  0#20 ++ c.tiltBit ++ 0#4 ++ bit c.tiltLvlInv ++ bit c.unkAsTilted ++ bit c.tiltBitPol ++ bit c.invEn

/-- `RegRead(S, i)` (45_register_port.md R220). -/
def regRead (p : Params) (S : Regs) (i : BitVec 3) : RegWord :=
  match i.toNat with
  | 0 => ctrlImage S.ctrl
  | 1 => 0#16 ++ S.holdMs
  | 2 => statusWord S
  | 3 => p.clkPerMs ++ p.cap
  | 4 => S.lastSent.extractLsb' 0 32
  | 5 => 0#24 ++ S.lastSent.extractLsb' 32 8
  | _ => 0#32

/-- `CtrlWrite(d)` (45_register_port.md R221): `d[7:4]` and `d[31:12]` are ignored. -/
def ctrlWrite (d : RegWord) : Ctrl where
  invEn := d.getLsbD 0
  tiltBitPol := d.getLsbD 1
  unkAsTilted := d.getLsbD 2
  tiltLvlInv := d.getLsbD 3
  tiltBit := d.extractLsb' 8 4

/-- `HoldWrite(d)` (45_register_port.md R222): `d[31:16]` is ignored. -/
def holdWrite (d : RegWord) : BitVec 16 := d.extractLsb' 0 16

/-- Drives CFG_RDATA with `RegRead(S, i)`. It writes no field of `S'` (20_memory.md R65). -/
def State.driveRead (i : BitVec 3) (s : State) : State := { s with rdata := regRead s.params s.now i }

/-- A write to a read-only or reserved index: no field is written (45_register_port.md R223). -/
def State.ignoreWrite (_d : RegWord) (s : State) : State := s

/-! ### The debounce engine -/

/-- `Dispatch(l)`, the confirmed-change callback and the TiltState update (41_debounce.md R138). -/
def State.dispatchLevel (l : Bool) (s : State) : State :=
  s.writeNext fun n =>
    { n with
      confKnown := true
      confLvl := l
      tiltState := if tiltedOf s.now l then .tilted else .flat
      tiltChgValid := true
      tiltChgTilted := tiltedOf s.now l }

/-- "If none of them dispatched (rule R138), `tilt_chg_valid' <- 0`" (40_cycle.md R111 step 3). -/
def State.noDispatch (s : State) : State := s.writeNext fun n => { n with tiltChgValid := false }

/-- `db_state' <- Holding`, `hold_cnt' <- N - 1`, no dispatch (41_debounce.md R132). -/
def State.armTimer (s : State) : State :=
  s.writeNext fun n =>
    { n with dbState := .holding, holdCnt := holdLen s.params s.now - 1, tiltChgValid := false }

/-- `hold_cnt' <- S.hold_cnt - 1`, no dispatch (41_debounce.md R135). -/
def State.countDown (s : State) : State :=
  s.writeNext fun n => { n with holdCnt := s.now.holdCnt - 1, tiltChgValid := false }

/-- `db_state' <- Idle` (41_debounce.md R136, R137). -/
def State.engineIdle (s : State) : State := s.writeNext fun n => { n with dbState := .idle }

/-! ### The queue -/

/-- DEQ: `q1 = QPop(S.q)` (43_queue.md R183). `q1` stays in `q'` unless an enqueue follows (40_cycle.md R111 step 6). Done
twice in a cycle it is done once, since it reads `S` (notes/assumptions/15.md). -/
def State.dequeue (s : State) : State :=
  { s with q1 := qPop s.now.q, nxt := { s.nxt with q := qPop s.now.q } }

/-- `q' <- QPush(v, r)` with the report `r` of this cycle's PACK (43_queue.md R181, R182). -/
def State.enqueueOnto (v : List Report) (s : State) : State :=
  match s.r with
  | some r => s.writeNext fun n => { n with q := qPush v r }
  | none => s

/-! ### The sender -/

/-- `snd_cur' <- h` and `snd_state' <- TX` with `h = QHead(S.q)` (44_sender.md R201). -/
def State.startWrite (s : State) : State :=
  match qHead s.now.q with
  | some h => s.writeNext fun n => { n with sndCur := h, sndState := .tx }
  | none => s

/-- SND_FETCH_NEW: DEQ and the start of the write (44_sender.md R201). -/
def State.fetchNew (s : State) : State := s.dequeue.startWrite

/-- `last_sent' <- S.snd_cur` (44_sender.md R203). -/
def State.recordSent (s : State) : State := s.writeNext fun n => { n with lastSent := s.now.sndCur }

/-- `snd_state' <- IDLE` (44_sender.md R203, R204). -/
def State.senderIdle (s : State) : State := s.writeNext fun n => { n with sndState := .idle }

end Sys2Proof.Machine
end

