-- ==== Sys2Proof/Machine/Debounce.lean ====
section
/-! DEFINITION. The debounce engine's operations (spec/41_debounce.md). -/

namespace Sys2Proof.Machine

/-- DB_SAMPLE (R130): `lvl_prev' <- l`, `primed' <- 1`. The `edge` it computes is `Machine.edge`, read from `S`. -/
def execDbSample (l : Bool) (s : State) : Host.Outcome State Fault Refusal :=
  .next (s.writeNext fun n => { n with lvlPrev := l, primed := true })

/-- DB_QUIET (R139): no edge in Idle. -/
def execDbQuiet (l : Bool) (s : State) : Host.Outcome State Fault Refusal :=
  s.runIf (mayQuiet l s) State.noDispatch

/-- DB_EDGE_ARM (R132): `db_state' <- Holding`, `hold_cnt' <- N - 1`. -/
def execDbEdgeArm (l : Bool) (s : State) : Host.Outcome State Fault Refusal :=
  s.runIf (mayArm l s) State.armTimer

/-- DB_EDGE_IMM (R134): `Dispatch(l)` at once; the state stays Idle. -/
def execDbEdgeImm (l : Bool) (s : State) : Host.Outcome State Fault Refusal :=
  s.runIf (mayDispatchNow l s) (State.dispatchLevel l)

/-- DB_EDGE_MASKED (R133): nothing beyond DB_SAMPLE's writes; DB_COUNT runs as it would without the edge. -/
def execDbEdgeMasked (l : Bool) (s : State) : Host.Outcome State Fault Refusal :=
  s.runIf (mayMask l s) id

/-- DB_COUNT (R135): `hold_cnt' <- S.hold_cnt - 1`. -/
def execDbCount (_l : Bool) (s : State) : Host.Outcome State Fault Refusal :=
  s.runIf (mayCount s) State.countDown

/-- DB_EXPIRE_CONFIRM (R136): `Dispatch(l)`, `db_state' <- Idle`. -/
def execDbExpireConfirm (l : Bool) (s : State) : Host.Outcome State Fault Refusal :=
  s.runIf (mayConfirm l s) (State.engineIdle ∘ State.dispatchLevel l)

/-- DB_EXPIRE_DISCARD (R137): `db_state' <- Idle`, nothing dispatched. -/
def execDbExpireDiscard (l : Bool) (s : State) : Host.Outcome State Fault Refusal :=
  s.runIf (mayDiscard l s) (State.engineIdle ∘ State.noDispatch)

end Sys2Proof.Machine
end

