-- ==== Sys2Proof/Machine/Packer.lean ====
section
/-! DEFINITION. The report packer and the operation PACK (spec/42_packer.md). -/

namespace Sys2Proof.Machine

/-- `TiltBit(ts, CTRL)` (R160). For the code `11`, which no rule writes, R160's case has no arm and the bit is `free`, any
value (93_implementation_defined.md I4). -/
def tiltBit (ts : TiltState) (c : Ctrl) (free : Bool) : Bool :=
  match ts with
  | .tilted => (!true) ^^ c.tiltBitPol
  | .flat => (!false) ^^ c.tiltBitPol
  | .unknown => (!c.unkAsTilted) ^^ c.tiltBitPol
  | .code11 => free

/-- `Compose(BTN, tb, CTRL) = (BTN & ~(1 << p)) | (zext_16(tb) << p)` with `p = CTRL.TILT_BIT` (R161). -/
def compose (btn : BitVec 16) (tb : Bool) (c : Ctrl) : BitVec 16 :=
  let p := c.tiltBit.toNat
  (btn &&& ~~~(0x0001#16 <<< p)) ||| ((bit tb).setWidth 16 <<< p)

/-- `Emit(C, CTRL) = CTRL.INV_EN ? ~C : C` (R162). -/
def emit (c : BitVec 16) (ctrl : Ctrl) : BitVec 16 := if ctrl.invEn then ~~~c else c

/-- `Serialise(B, ax, ay, aux) = {aux, ay, ax, B[15:8], B[7:0]}` (R163). -/
def serialise (b : BitVec 16) (ax ay aux : BitVec 8) : Report :=
  aux ++ ay ++ ax ++ b.extractLsb' 8 8 ++ b.extractLsb' 0 8

/-- `Pack(S, w)` (R164), from CTRL and the TiltState at the start of the cycle. -/
def packReport (S : Regs) (free : Bool) (g : Gamepad) : Report :=
  serialise (emit (compose g.btn (tiltBit S.tiltState S.ctrl free) S.ctrl) S.ctrl) g.ax g.ay g.aux

/-- PACK (R164): `r = Pack(S, w)`, handed to the enqueue of this cycle. It writes no field of `S'`. -/
def execPack (g : Gamepad) (s : State) : Host.Outcome State Fault Refusal :=
  .next { s with r := some (packReport s.now (Config.tiltBitOfCode11 s.cycle) g) }

end Sys2Proof.Machine
end

