-- ==== Sys2Proof/Machine/Queue.lean ====
section
/-! DEFINITION. The delivery queue's operations (spec/43_queue.md). -/

namespace Sys2Proof.Machine

/-- ENQ (R181): `q' <- QPush(q1, r)`. -/
def execEnq (s : State) : Host.Outcome State Fault Refusal :=
  s.runIf (mayEnqueue s) (State.enqueueOnto s.q1)

/-- ENQ_PURGE (R182): `q' <- QPush(QPurge(q1), r)`. -/
def execEnqPurge (s : State) : Host.Outcome State Fault Refusal :=
  s.runIf (mayPurge s) (State.enqueueOnto (qPurge s.q1))

/-- DEQ (R183). It runs only together with SND_FETCH_DUP or SND_FETCH_NEW, whose condition contains its own. -/
def execDeq (s : State) : Host.Outcome State Fault Refusal :=
  s.runIf (mayDequeue s) State.dequeue

end Sys2Proof.Machine
end

