-- ==== Sys2Proof/Machine/RegisterPort.lean ====
section
/-! DEFINITION. The register port's operations (spec/45_register_port.md). -/

namespace Sys2Proof.Machine

/-- CFG_READ (R220): CFG_RDATA is `RegRead(S, CFG_IDX)`, the value before a write of the same cycle (R224). -/
def execCfgRead (idx : BitVec 3) (s : State) : Host.Outcome State Fault Refusal :=
  .next (s.driveRead idx)

/-- CFG_WR_CTRL (R221). -/
def execCfgWrCtrl (d : RegWord) (s : State) : Host.Outcome State Fault Refusal :=
  .next (s.writeNext fun n => { n with ctrl := ctrlWrite d })

/-- CFG_WR_HOLD (R222). -/
def execCfgWrHold (d : RegWord) (s : State) : Host.Outcome State Fault Refusal :=
  .next (s.writeNext fun n => { n with holdMs := holdWrite d })

/-- CFG_WR_STATUS (R223): no effect. -/
def execCfgWrStatus (d : RegWord) (s : State) : Host.Outcome State Fault Refusal :=
  .next (s.ignoreWrite d)

/-- CFG_WR_PARAM (R223): no effect. -/
def execCfgWrParam (d : RegWord) (s : State) : Host.Outcome State Fault Refusal :=
  .next (s.ignoreWrite d)

/-- CFG_WR_LAST_LO (R223): no effect. -/
def execCfgWrLastLo (d : RegWord) (s : State) : Host.Outcome State Fault Refusal :=
  .next (s.ignoreWrite d)

/-- CFG_WR_LAST_HI (R223): no effect. -/
def execCfgWrLastHi (d : RegWord) (s : State) : Host.Outcome State Fault Refusal :=
  .next (s.ignoreWrite d)

/-- CFG_WR_RSVD6 (R223): no effect. -/
def execCfgWrRsvd6 (d : RegWord) (s : State) : Host.Outcome State Fault Refusal :=
  .next (s.ignoreWrite d)

/-- CFG_WR_RSVD7 (R223): no effect. -/
def execCfgWrRsvd7 (d : RegWord) (s : State) : Host.Outcome State Fault Refusal :=
  .next (s.ignoreWrite d)

end Sys2Proof.Machine
end

