-- ==== Sys2Proof/Machine/Reset.lean ====
section
/-! DEFINITION. The operation RESET (spec/70_reset_and_hazards.md). -/

namespace Sys2Proof.Machine

/-- RESET (R260): every field of `S'` to its value of 10_state.md R45. In a reset word no other operation is selected but
CFG_READ (30_encoding.md R92), which is how steps 2 to 6 of 40_cycle.md R111 do not run. -/
def execReset (s : State) : Host.Outcome State Fault Refusal :=
  .next s.takeReset

end Sys2Proof.Machine
end

