-- ==== Sys2Proof/Machine/Sender.lean ====
section
/-! DEFINITION. The transport sender's operations (spec/44_sender.md). -/

namespace Sys2Proof.Machine

/-- SND_EMPTY (R206): nothing to fetch; no field is written. -/
def execSndEmpty (s : State) : Host.Outcome State Fault Refusal :=
  s.runIf (mayStayEmpty s) id

/-- SND_FETCH_DUP (R200): DEQ, and the report is discarded. -/
def execSndFetchDup (s : State) : Host.Outcome State Fault Refusal :=
  s.runIf (mayDiscardDup s) State.dequeue

/-- SND_FETCH_NEW (R201): DEQ, `snd_cur' <- h`, `snd_state' <- TX`. -/
def execSndFetchNew (s : State) : Host.Outcome State Fault Refusal :=
  s.runIf (mayFetchNew s) State.fetchNew

/-- SND_WAIT (R202): the write in flight goes on; no field is written. -/
def execSndWait (s : State) : Host.Outcome State Fault Refusal :=
  s.runIf (senderBusy s) id

/-- SND_DONE_OK (R203): `last_sent' <- S.snd_cur`, `snd_state' <- IDLE`. -/
def execSndDoneOk (s : State) : Host.Outcome State Fault Refusal :=
  s.runIf (senderBusy s) (State.senderIdle ∘ State.recordSent)

/-- SND_DONE_FAIL (R204): `snd_state' <- IDLE`; `last_sent` is unchanged. -/
def execSndDoneFail (s : State) : Host.Outcome State Fault Refusal :=
  s.runIf (senderBusy s) State.senderIdle

/-- SND_DONE_IGNORED (R205): TX_DONE and TX_OK have no effect while the sender is IDLE. -/
def execSndDoneIgnored (_ok : Bool) (s : State) : Host.Outcome State Fault Refusal :=
  s.runIf (senderFree s) id

end Sys2Proof.Machine
end

