-- ==== Sys2Proof/Machine/Dispatch.lean ====
section
/-! DEFINITION. The meaning of each operation, one arm per row of spec/opcode_table.json. -/

namespace Sys2Proof.Machine

-- One operation of a cycle (30_encoding.md R92): it reads `s.now` (`S`) and writes `s.nxt` (`S'`).
def exec (i : Instr) (s : State) : Host.Outcome State Fault Refusal :=
  match i with
  | .reset => Sys2Proof.Machine.execReset s
  | .cfgRead idx => Sys2Proof.Machine.execCfgRead idx s
  | .cfgWrCtrl wdata => Sys2Proof.Machine.execCfgWrCtrl wdata s
  | .cfgWrHold wdata => Sys2Proof.Machine.execCfgWrHold wdata s
  | .cfgWrStatus wdata => Sys2Proof.Machine.execCfgWrStatus wdata s
  | .cfgWrParam wdata => Sys2Proof.Machine.execCfgWrParam wdata s
  | .cfgWrLastLo wdata => Sys2Proof.Machine.execCfgWrLastLo wdata s
  | .cfgWrLastHi wdata => Sys2Proof.Machine.execCfgWrLastHi wdata s
  | .cfgWrRsvd6 wdata => Sys2Proof.Machine.execCfgWrRsvd6 wdata s
  | .cfgWrRsvd7 wdata => Sys2Proof.Machine.execCfgWrRsvd7 wdata s
  | .dbSample tiltIn => Sys2Proof.Machine.execDbSample tiltIn s
  | .dbQuiet tiltIn => Sys2Proof.Machine.execDbQuiet tiltIn s
  | .dbEdgeArm tiltIn => Sys2Proof.Machine.execDbEdgeArm tiltIn s
  | .dbEdgeImm tiltIn => Sys2Proof.Machine.execDbEdgeImm tiltIn s
  | .dbEdgeMasked tiltIn => Sys2Proof.Machine.execDbEdgeMasked tiltIn s
  | .dbCount tiltIn => Sys2Proof.Machine.execDbCount tiltIn s
  | .dbExpireConfirm tiltIn => Sys2Proof.Machine.execDbExpireConfirm tiltIn s
  | .dbExpireDiscard tiltIn => Sys2Proof.Machine.execDbExpireDiscard tiltIn s
  | .pack pad => Sys2Proof.Machine.execPack pad s
  | .enq => Sys2Proof.Machine.execEnq s
  | .enqPurge => Sys2Proof.Machine.execEnqPurge s
  | .deq => Sys2Proof.Machine.execDeq s
  | .sndEmpty => Sys2Proof.Machine.execSndEmpty s
  | .sndFetchDup => Sys2Proof.Machine.execSndFetchDup s
  | .sndFetchNew => Sys2Proof.Machine.execSndFetchNew s
  | .sndWait => Sys2Proof.Machine.execSndWait s
  | .sndDoneOk => Sys2Proof.Machine.execSndDoneOk s
  | .sndDoneFail => Sys2Proof.Machine.execSndDoneFail s
  | .sndDoneIgnored txOk => Sys2Proof.Machine.execSndDoneIgnored txOk s

end Sys2Proof.Machine
end

