-- ==== Sys2Proof/Machine/Cycle.lean ====
section
/-! DEFINITION. One clock cycle as its operations in order (spec/40_cycle.md R110, R111). -/

namespace Sys2Proof.Machine

/-- Runs operations one after the other, stopping at a fault or a refusal (of which DPD has none). -/
def runOps : List Instr → State → Host.Outcome State Fault Refusal
  | [], s => .next s
  | i :: rest, s =>
    match exec i s with
    | .next t => runOps rest t
    | .fault f => .fault f
    | .refused r => .refused r

/-- One cycle on the word `w`: every operation the word selects, in the order of R111, from `S' = S`; then `S'` becomes
`S`. -/
def runCycle (w : Word) (s : State) : Host.Outcome State Fault Refusal :=
  match runOps (decode w) s.settle with
  | .next t => .next t.endCycle
  | .fault f => .fault f
  | .refused r => .refused r

/-- Places a word at the front of the words to come, in the place of the one that stood there. -/
def State.placeWord (s : State) (w : Word) : State := { s with stim := w :: s.stim.tail }

end Sys2Proof.Machine
end

