-- ==== Sys2Proof/Machine/Step.lean ====
section
/-! DEFINITION. One step of the machine is one clock cycle: `step(S, w)` of spec/40_cycle.md, with `w` the next word. -/

namespace Sys2Proof.Machine

/-- One clock cycle (40_cycle.md R110). -/
def step (s : State) : Host.Outcome State Fault Refusal := runCycle s.word s

/-- `s` with the word whose low `nbits` bits are `w` (every bit above is 0) as the stimulus word of the next cycle. DPD
fetches nothing (10_state.md R21): words come from outside, and this stands for the environment driving one. -/
def State.withFetchWord (s : State) (nbits w : Nat) : State :=
  s.placeWord (BitVec.ofNat 128 (w % 2 ^ nbits))

end Sys2Proof.Machine
end

