-- ==== Sys2Proof/Machine/Ports.lean ====
section
/-! DEFINITION. The output ports of DPD (10_state.md R34): functions of the state at the start of the cycle, and CFG_RDATA
of that state and the cycle's CFG_IDX. -/

namespace Sys2Proof.Machine

/-- The values of the output ports in one cycle (10_state.md R34). -/
structure Ports where
  /-- TILT_STATE. -/
  tiltState : BitVec 2
  /-- TILT_CHG_VALID. -/
  tiltChgValid : Bool
  /-- TILT_CHG_TILTED. -/
  tiltChgTilted : Bool
  /-- TX_VALID. -/
  txValid : Bool
  /-- TX_DATA. -/
  txData : Report
  /-- Q_COUNT. -/
  qCount : BitVec 8
  /-- IN_READY: "the producer is never refused or stalled". -/
  inReady : Bool
  /-- CFG_RDATA. -/
  cfgRdata : RegWord
  deriving DecidableEq, Repr

/-- The output ports in a cycle that starts in state `s.now` with register index `idx` (10_state.md R34). -/
def ports (s : State) (idx : BitVec 3) : Ports where
  tiltState := s.now.tiltState.code
  tiltChgValid := s.now.tiltChgValid
  tiltChgTilted := s.now.tiltChgTilted
  txValid := s.now.sndState == .tx
  txData := s.now.sndCur
  qCount := queueCount s.now
  inReady := true
  cfgRdata := regRead s.params s.now idx

/-- Byte `k` of a report on the wire, `r[8k+7:8k]` (20_memory.md R61). -/
def reportByte (r : Report) (k : Nat) : BitVec 8 := r.extractLsb' (8 * k) 8

end Sys2Proof.Machine
end

