-- ==== Sys2Proof/Machine/Reference.lean ====
section
/-! DEFINITION. The reference pseudocode of the whole cycle, 40_cycle.md R113, in its own words: `S'` starts as `S` and each
numbered part writes its fields. The machine does not call it; a statement says that a step agrees with it. -/

namespace Sys2Proof.Machine

/-- Part 2 of R113, the register port. -/
def refRegisterPort (w : Stim) (n : Regs) : Regs :=
  if w.cfgWe then
    if w.cfgIdx = 0 then { n with ctrl := ctrlWrite w.cfgWdata }
    else if w.cfgIdx = 1 then { n with holdMs := holdWrite w.cfgWdata }
    else n
  else n

/-- `Dispatch(l)` of R113. -/
def refDispatch (S : Regs) (l : Bool) (n : Regs) : Regs :=
  let t := l ^^ S.ctrl.tiltLvlInv
  { n with
    confKnown := true, confLvl := l, tiltState := if t then .tilted else .flat, tiltChgValid := true, tiltChgTilted := t }

/-- Part 3 of R113, the debounce engine. -/
def refDebounce (p : Params) (S : Regs) (w : Stim) (n : Regs) : Regs :=
  let l := w.tiltIn
  let isEdge : Bool := S.primed && (l != S.lvlPrev)
  let n : Regs := { n with lvlPrev := l, primed := true }
  let bigN := S.holdMs.toNat * p.clkPerMs.toNat
  let quiet : Regs → Regs := fun n => { n with tiltChgValid := false }
  match S.dbState with
  | .idle =>
    if isEdge ∧ 1 ≤ bigN then quiet { n with dbState := .holding, holdCnt := bigN - 1 }
    else if isEdge ∧ bigN = 0 then refDispatch S l n
    else quiet n
  | .holding =>
    if S.holdCnt ≠ 0 then quiet { n with holdCnt := S.holdCnt - 1 }
    else if S.confKnown = false ∨ S.confLvl ≠ l then { refDispatch S l n with dbState := .idle }
    else quiet { n with dbState := .idle }

/-- Part 5 of R113, the sender's fields. -/
def refSender (S : Regs) (w : Stim) (n : Regs) : Regs :=
  match S.sndState with
  | .idle =>
    match S.q with
    | h :: _ => if h ≠ S.lastSent then { n with sndCur := h, sndState := .tx } else n
    | [] => n
  | .tx =>
    if w.txDone ∧ w.txOk then { n with lastSent := S.sndCur, sndState := .idle }
    else if w.txDone then { n with sndState := .idle }
    else n

/-- Part 5 of R113, the queue after the dequeue: `q1`. -/
def refDequeue (S : Regs) : List Report :=
  match S.sndState, S.q with
  | .idle, _ :: rest => rest
  | _, q => q

/-- Part 6 of R113, the enqueue of the report of part 4. -/
def refEnqueue (p : Params) (w : Stim) (report : Report) (q1 : List Report) : List Report :=
  if w.inValid then if q1.length < p.cap.toNat then q1 ++ [report] else [report] else q1

/-- `step(S, w)` of 40_cycle.md R113; `free` is the TiltBit of the code `11` (93_implementation_defined.md I4). -/
def refStep (p : Params) (free : Bool) (S : Regs) (w : Stim) : Regs :=
  if w.rst then Regs.reset p
  else
    { refSender S w (refDebounce p S w (refRegisterPort w S)) with
      q := refEnqueue p w (packReport S free w.pad) (refDequeue S) }

end Sys2Proof.Machine
end

