-- ==== Sys2Proof/Machine/Ring.lean ====
section
/-! DEFINITION. The physical form of the queue, "which a model need not copy" (43_queue.md R180, 10_state.md R28): a storage
array, a head index and a count. The machine holds the sequence; a statement says that this form refines it. -/

namespace Sys2Proof.Machine

/-- `mem[0..CAP-1]`, `q_head` and `q_count` (10_state.md R28). -/
structure RingBuffer where
  mem : List Report
  head : Nat
  count : Nat
  deriving DecidableEq, Repr

/-- The ranges of 10_state.md R28, with `cap` entries of storage. -/
abbrev RingBuffer.WF (cap : Nat) (g : RingBuffer) : Prop := g.mem.length = cap ∧ g.head < cap ∧ g.count ≤ cap

/-- `[mem[(q_head + i) mod CAP] for i = 0 .. q_count-1]` (10_state.md R28). -/
def RingBuffer.toSeq (cap : Nat) (g : RingBuffer) : List Report :=
  (List.range g.count).map fun i => g.mem.getD ((g.head + i) % cap) 0

/-- `QHead = mem[q_head]` (43_queue.md R180). -/
def RingBuffer.first (g : RingBuffer) : Report := g.mem.getD g.head 0

/-- `q_head <- (q_head + 1) mod CAP`, `q_count <- q_count - 1` (43_queue.md R180). -/
def RingBuffer.pop (cap : Nat) (g : RingBuffer) : RingBuffer := { g with head := (g.head + 1) % cap, count := g.count - 1 }

/-- `mem[(q_head + q_count) mod CAP] <- r`, `q_count <- q_count + 1` (43_queue.md R180). -/
def RingBuffer.push (cap : Nat) (g : RingBuffer) (r : Report) : RingBuffer :=
  { g with mem := g.mem.set ((g.head + g.count) % cap) r, count := g.count + 1 }

/-- `q_count <- 0` (43_queue.md R180). -/
def RingBuffer.purge (g : RingBuffer) : RingBuffer := { g with count := 0 }

end Sys2Proof.Machine
end

