-- ==== Sys2Proof/Machine/Trace.lean ====
section
/-! DEFINITION. The trace syntax, DPD's "assembler" (30_encoding.md R97, R98): from text to lines, from lines to items, from
items to stimulus words. -/

namespace Sys2Proof.Machine

/-- An item of a `cyc` line (30_encoding.md R97). -/
inductive TraceItem where
  /-- `rst`. -/
  | rst
  /-- `tilt=0`, `tilt=1`. -/
  | tilt (v : Bool)
  /-- `push btn,ax,ay,aux`. -/
  | push (btn ax ay aux : Nat)
  /-- `done ok`, `done fail`. -/
  | done (ok : Bool)
  /-- `wr idx,data`. -/
  | wr (idx data : Nat)
  /-- `rd idx`. -/
  | rd (idx : Nat)
  deriving DecidableEq, Repr

/-- A line: `cyc` with items, or a pseudo-operation (30_encoding.md R97, R98). -/
inductive TraceLine where
  | cyc (items : List TraceItem)
  | reset
  | idle (k : Nat)
  | level (v : Bool)
  | hold (v : Bool) (k : Nat)
  | send (btn ax ay aux : Nat)
  | ack
  | nak
  deriving DecidableEq, Repr

/-- The reasons a text is no trace (notes/assumptions/21.md). -/
inductive TraceError where
  /-- The text is no line of the grammar of R97. -/
  | notALine
  /-- A number is wider than its field of R90. -/
  | valueTooWide
  /-- One item stands twice on a line. -/
  | itemTwice
  /-- "`wr` and `rd` on one line must name the same index" (R97). -/
  | indicesDiffer
  /-- `hold v 0` has no expansion (R98: `cyc tilt=v` followed by `idle k-1`). -/
  | holdForNoCycle
  deriving DecidableEq, Repr

/-- The `cyc` lines, as their items, that a line stands for (30_encoding.md R98). -/
def TraceLine.expand : TraceLine → Except TraceError (List (List TraceItem))
  | .cyc items => .ok [items]
  | .reset => .ok [[.rst]]
  | .idle k => .ok (List.replicate k [])
  | .level v => .ok [[.tilt v]]
  | .hold _ 0 => .error .holdForNoCycle
  | .hold v (k + 1) => .ok ([.tilt v] :: List.replicate k [])
  | .send b x y a => .ok [[.push b x y a]]
  | .ack => .ok [[.done true]]
  | .nak => .ok [[.done false]]

/-- The numbers of an item fit their fields (30_encoding.md R90). -/
def TraceItem.fits : TraceItem → Bool
  | .push b x y a => decide (b < 2 ^ 16 ∧ x < 2 ^ 8 ∧ y < 2 ^ 8 ∧ a < 2 ^ 8)
  | .wr i d => decide (i < 8 ∧ d < 2 ^ 32)
  | .rd i => decide (i < 8)
  | _ => true

/-- Which item of the grammar an item is. -/
def TraceItem.kind : TraceItem → Nat
  | .rst => 0
  | .tilt _ => 1
  | .push .. => 2
  | .done _ => 3
  | .wr .. => 4
  | .rd _ => 5

/-- The index an item names, if it names one. -/
def TraceItem.index : TraceItem → Option Nat
  | .wr i _ => some i
  | .rd i => some i
  | _ => none

/-- The checks on one line's items: widths, no item twice, one register index (30_encoding.md R97). -/
def checkItems (items : List TraceItem) : Except TraceError Unit :=
  if !items.all TraceItem.fits then .error .valueTooWide
  else if !decide (items.map TraceItem.kind).Nodup then .error .itemTwice
  else
    match items.filterMap TraceItem.index with
    | [i, j] => if i = j then .ok () else .error .indicesDiffer
    | _ => .ok ()

/-- The field or fields that an item sets (30_encoding.md R97). -/
def TraceItem.setFields (f : Stim) : TraceItem → Stim
  | .rst => { f with rst := true }
  | .tilt v => { f with tiltIn := v }
  | .push b x y a =>
    { f with
      inValid := true
      pad := { btn := BitVec.ofNat 16 b, ax := BitVec.ofNat 8 x, ay := BitVec.ofNat 8 y, aux := BitVec.ofNat 8 a } }
  | .done ok => { f with txDone := true, txOk := ok }
  | .wr i d => { f with cfgWe := true, cfgIdx := BitVec.ofNat 3 i, cfgWdata := BitVec.ofNat 32 d }
  | .rd i => { f with cfgIdx := BitVec.ofNat 3 i }

/-- The fields of a `cyc` line: all 0 but for the sticky TILT_IN, `prev`, and what the items set (30_encoding.md R97). -/
def lineFields (prev : Bool) (items : List TraceItem) : Stim :=
  items.foldl TraceItem.setFields { Stim.zero with tiltIn := prev }

/-- The words of `cyc` lines after a line whose TILT_IN was `prev` (0 before the first line; 30_encoding.md R97). -/
def assembleItems (prev : Bool) : List (List TraceItem) → Except TraceError (List Word)
  | [] => .ok []
  | items :: rest => do
    let _ ← checkItems items
    let f := lineFields prev items
    let words ← assembleItems f.tiltIn rest
    return f.toWord :: words

/-- The `cyc` lines of a whole trace (30_encoding.md R98). -/
def expandLines : List TraceLine → Except TraceError (List (List TraceItem))
  | [] => .ok []
  | line :: rest => do
    let here ← line.expand
    let after ← expandLines rest
    return here ++ after

/-- The stimulus words of a trace (30_encoding.md R97, R98). -/
def assemble (lines : List TraceLine) : Except TraceError (List Word) := do
  assembleItems false (← expandLines lines)

/-! ### Reading the text -/

/-- Cuts a text at a separator. -/
def splitAtChar (sep : Char) : List Char → List (List Char)
  | [] => [[]]
  | c :: rest =>
    match splitAtChar sep rest with
    | [] => [[c]]
    | word :: more => if c = sep then [] :: word :: more else (c :: word) :: more

/-- The value of a digit, below 16. -/
def digitValue (c : Char) : Option Nat :=
  if '0' ≤ c ∧ c ≤ '9' then some (c.toNat - '0'.toNat)
  else if 'a' ≤ c ∧ c ≤ 'f' then some (c.toNat - 'a'.toNat + 10)
  else if 'A' ≤ c ∧ c ≤ 'F' then some (c.toNat - 'A'.toNat + 10)
  else none

/-- Reads digits of a base after those whose value is `acc`. -/
def readDigits (base acc : Nat) : List Char → Option Nat
  | [] => some acc
  | c :: rest =>
    match digitValue c with
    | some d => if d < base then readDigits base (acc * base + d) rest else none
    | none => none

/-- `number := decimal | "0x" hex` (30_encoding.md R97). -/
def readNumber : List Char → Option Nat
  | [] => none
  | ['0', 'x'] => none
  | '0' :: 'x' :: digits => readDigits 16 0 digits
  | digits => readDigits 10 0 digits

/-- `0` or `1`. -/
def readBit : List Char → Option Bool
  | ['0'] => some false
  | ['1'] => some true
  | _ => none

/-- Numbers with commas between them. -/
def readNumbers (cs : List Char) : Option (List Nat) := (splitAtChar ',' cs).mapM readNumber

/-- The items of a `cyc` line, from its words (30_encoding.md R97). -/
def readItems : List (List Char) → Option (List TraceItem)
  | [] => some []
  | ['r', 's', 't'] :: rest => (readItems rest).map (TraceItem.rst :: ·)
  | ['t', 'i', 'l', 't', '=', '0'] :: rest => (readItems rest).map (TraceItem.tilt false :: ·)
  | ['t', 'i', 'l', 't', '=', '1'] :: rest => (readItems rest).map (TraceItem.tilt true :: ·)
  | ['p', 'u', 's', 'h'] :: nums :: rest =>
    match readNumbers nums with
    | some [b, x, y, a] => (readItems rest).map (TraceItem.push b x y a :: ·)
    | _ => none
  | ['d', 'o', 'n', 'e'] :: ['o', 'k'] :: rest => (readItems rest).map (TraceItem.done true :: ·)
  | ['d', 'o', 'n', 'e'] :: ['f', 'a', 'i', 'l'] :: rest => (readItems rest).map (TraceItem.done false :: ·)
  | ['w', 'r'] :: nums :: rest =>
    match readNumbers nums with
    | some [i, d] => (readItems rest).map (TraceItem.wr i d :: ·)
    | _ => none
  | ['r', 'd'] :: num :: rest =>
    match readNumber num with
    | some i => (readItems rest).map (TraceItem.rd i :: ·)
    | none => none
  | _ => none

/-- A pseudo-operation, from its words (30_encoding.md R98). -/
def readPseudo : List (List Char) → Option TraceLine
  | [['r', 'e', 's', 'e', 't']] => some .reset
  | [['i', 'd', 'l', 'e'], k] => (readNumber k).map .idle
  | [['l', 'e', 'v', 'e', 'l'], v] => (readBit v).map .level
  | [['h', 'o', 'l', 'd'], v, k] =>
    match readBit v, readNumber k with
    | some v, some k => some (.hold v k)
    | _, _ => none
  | [['s', 'e', 'n', 'd'], nums] =>
    match readNumbers nums with
    | some [b, x, y, a] => some (.send b x y a)
    | _ => none
  | [['a', 'c', 'k']] => some .ack
  | [['n', 'a', 'k']] => some .nak
  | _ => none

/-- One line of text (30_encoding.md R97): its words are the pieces between spaces. -/
def readLine (text : List Char) : Except TraceError TraceLine :=
  match (splitAtChar ' ' text).filter fun piece => !piece.isEmpty with
  | ['c', 'y', 'c'] :: rest =>
    match readItems rest with
    | some items => .ok (.cyc items)
    | none => .error .notALine
  | pieces =>
    match readPseudo pieces with
    | some line => .ok line
    | none => .error .notALine

/-- The stimulus words of a trace given as lines of text. -/
def assembleText (lines : List (List Char)) : Except TraceError (List Word) := do
  assemble (← lines.mapM readLine)

end Sys2Proof.Machine
end

