-- ==== Sys2Proof/Safety.lean ====
section
/-! DEFINITION. What a good state is, in the terms the statements use: the invariants of 10_state.md R46 and 41_debounce.md
R140, the form of a state between cycles, and quiescence (40_cycle.md R115). -/

namespace Sys2Proof.Machine

/-- What every state after a reset satisfies, whatever the stimulus was. -/
structure Regs.Inv (p : Params) (S : Regs) : Prop where
  /-- "`len(q) <= CAP`" (R46). -/
  queueFits : S.q.length ≤ capacity p
  /-- "`tilt_state != 11`" (R46). -/
  noCode11 : S.tiltState ≠ .code11
  /-- "`tilt_state = UNKNOWN` if and only if `conf_known = 0`" (R46). -/
  unknownIff : S.tiltState = .unknown ↔ S.confKnown = false
  /-- "`conf_known = 0` means UNKNOWN ... In that case `conf_lvl` is 0" (R26). -/
  unknownLevel : S.confKnown = false → S.confLvl = false
  /-- After a dispatch TiltState is what the dispatch found, and `tilt_chg_tilted` keeps that (R33, R46). -/
  tiltOfDispatch : S.confKnown = true → S.tiltState = if S.tiltChgTilted then .tilted else .flat
  /-- The pulse follows a dispatch (R33), so a level is confirmed then. -/
  pulseKnown : S.tiltChgValid = true → S.confKnown = true
  /-- The range of `hold_cnt`, `0 .. 65535*CLK_PER_MS - 1` (R23). -/
  timerRange : S.holdCnt + 1 ≤ 65535 * p.clkPerMs.toNat
  /-- A timer is armed by an edge, and a level is confirmed after one; edges need `primed` (R130). -/
  holdingPrimed : S.dbState = .holding → S.primed = true
  knownPrimed : S.confKnown = true → S.primed = true
  /-- The idle invariant of 41_debounce.md R140. -/
  idleLevel : S.dbState = .idle → S.confKnown = true → S.primed = true → S.confLvl = S.lvlPrev
  /-- The report in flight differs from the last one sent (44_sender.md R201, R203, R210). -/
  inFlightNew : S.sndState = .tx → S.sndCur ≠ S.lastSent

/-- The machine's invariant: the build parameters are in the ranges of 00_scope.md R5, and `S` is a good state. -/
def State.Inv (s : State) : Prop := s.params.WF ∧ s.now.Inv s.params

/-- The form of a state between cycles: nothing is written yet, nothing is packed, nothing is dequeued. -/
abbrev State.Settled (s : State) : Prop := s.nxt = s.now ∧ s.q1 = s.now.q ∧ s.r = none

/-- "A state is *quiescent* when `db_state = Idle`, `snd_state = IDLE`, `len(q) = 0` and `tilt_chg_valid = 0`"
(40_cycle.md R115). -/
abbrev Regs.Quiescent (S : Regs) : Prop :=
  S.dbState = .idle ∧ S.sndState = .idle ∧ S.q.length = 0 ∧ S.tiltChgValid = false

/-- What the deduplicator has reached once `x` was sent and only `x` is queued (44_sender.md R208). -/
abbrev Regs.OnlyDuplicatesOf (x : Report) (S : Regs) : Prop :=
  S.sndState = .idle ∧ S.lastSent = x ∧ ∀ y ∈ S.q, y = x

/-- `n` cycles one after the other (a part of a run, 40_cycle.md R115). -/
def runSteps : Nat → State → Host.Outcome State Fault Refusal
  | 0, s => .next s
  | n + 1, s =>
    match step s with
    | .next t => runSteps n t
    | .fault f => .fault f
    | .refused r => .refused r

end Sys2Proof.Machine
end

