-- ==== Sys2Proof/Certificates/Slice0/Obligations.lean ====
section
/-! DEFINITION. The statements about the model. -/

open Sys2Proof Sys2Proof.Machine

/-! ### Encodings -/

/-- R90: the stimulus word and the record of its fields carry the same data, but for the reserved bits. -/
def Obligations.StimulusFieldsRoundTrip : Prop :=
  ∀ (f : Stim) (w : Word), Stim.ofWord f.toWord = f ∧ (Stim.ofWord w).toWord = w &&& ~~~reservedBits

/-- R90, R92: every operation, with every value of its operands, is among those its encoding selects, and the encoding
sets no reserved bit. -/
def Obligations.OperationsEncodeAndDecode : Prop :=
  ∀ i : Instr, i ∈ decode (encode i) ∧ reservedClear (encode i) = true

/-- Words written out from R90 and R97, and what R92 selects for them. -/
def Obligations.SampleWordsSelectTheirOperations : Prop :=
  decode 0x00000000000000000000000000000001#128 = [.reset, .cfgRead 0] ∧
  .cfgWrCtrl 0xfffff30e ∈ decode 0x00000000fffff30e0000000000000020#128 ∧
  .cfgWrHold 0x0001001e ∈ decode 0x000000000001001e0000000000000120#128 ∧
  .pack { btn := 0x0200, ax := 10, ay := 20, aux := 3 } ∈ decode 0x00000000000000000003140a02000004#128 ∧
  .dbEdgeArm true ∈ decode 0x00000000000000000000000000000002#128 ∧
  .sndDoneOk ∈ decode 0x00000000000000000000000000000018#128 ∧
  .sndDoneFail ∈ decode 0x00000000000000000000000000000008#128

/-- R93: words that differ only in reserved bits make the same cycle. -/
def Obligations.ReservedBitsChangeNothing : Prop :=
  ∀ (s : State) (w w' : Word), w &&& ~~~reservedBits = w' &&& ~~~reservedBits → runCycle w s = runCycle w' s

/-! ### The cycle -/

/-- How the model's step is made of operations: each one that `decode` gives for the cycle's word is executed (`exec`) in its
place among the others, from a state with the same `S`, parameters, words to come and counter as at the start of the
cycle; after the last one the writes of the cycle become visible. R92 and R111 run the ENABLED operations in the order of
R111's parts. That the selected ones that are not enabled are executed too, without effect, and that the order within
one part is the table's, is the model's choice (DEDUCED, notes/assumptions/10.md and notes/assumptions/16.md). -/
def Obligations.StepRunsEachSelectedOperation : Prop :=
  ∀ (s : State) (before : List Instr) (i : Instr) (after : List Instr), decode s.word = before ++ i :: after →
    ∃ u v x : State,
      runOps before s.settle = .next u ∧ u.now = s.now ∧ u.params = s.params ∧ u.stim = s.stim ∧ u.cycle = s.cycle ∧
      exec i u = .next v ∧ v.now = s.now ∧ v.params = s.params ∧
      runOps after v = .next x ∧ step s = .next x.endCycle

/-- The word placed by `withFetchWord` is the next cycle's word, and nothing else of the state changes but the words to come. -/
def Obligations.PlacedWordDrivesTheNextCycle : Prop :=
  ∀ (s : State) (nbits w : Nat),
    (s.withFetchWord nbits w).word = BitVec.ofNat 128 (w % 2 ^ nbits) ∧
    step (s.withFetchWord nbits w) = runCycle (BitVec.ofNat 128 (w % 2 ^ nbits)) (s.withFetchWord nbits w) ∧
    s.withFetchWord nbits w = { s with stim := BitVec.ofNat 128 (w % 2 ^ nbits) :: s.stim.tail }

/-- R114, R240: every state has a next state; no step faults or refuses. The parameters never change (R5, R6). The other
clauses are about the model's own fields and not about DPD: one word of `stim` is consumed (notes/assumptions/1.md), the
state between cycles has its settled form (`nxt`, `q1` and `r`, notes/assumptions/3.md and notes/assumptions/4.md), and
the counter of the free values goes up by one (DESIGN CHOICE, notes/assumptions/6.md; R248 gives DPD no cycle counter). -/
def Obligations.EveryStepAnswersANextState : Prop :=
  ∀ s : State, ∃ t : State, step s = .next t ∧
    t.Settled ∧ t.params = s.params ∧ t.stim = s.stim.tail ∧ t.cycle = s.cycle + 1

/-- R113: running the operations one at a time gives what the reference pseudocode of the whole cycle gives, and CFG_RDATA
is `RegRead(S, CFG_IDX)` in every cycle (R220). The TiltBit of the code `11` is whatever the free value is (I4). -/
def Obligations.StepAgreesWithTheReferenceCycle : Prop :=
  ∀ s : State, ∃ t : State, step s = .next t ∧
    t.now = refStep s.params (Config.tiltBitOfCode11 s.cycle) s.now (Stim.ofWord s.word) ∧
    t.rdata = regRead s.params s.now (s.word.extractLsb' 8 3)

/-- R46, R140, R23, R210: every step keeps the invariant. -/
def Obligations.InvariantKeptByEveryStep : Prop :=
  ∀ s t : State, s.Inv → step s = .next t → t.Inv

/-- R46: the state after reset has the invariant, for all build parameters of R5 and for those of `State.reset`. -/
def Obligations.InvariantHoldsAfterReset : Prop :=
  (∀ p : Params, p.WF → (State.resetWith p).Inv) ∧ State.reset.Inv

/-- R260, R45: RESET is selected by RST, it gives every field of `S'` its reset value and nothing else changes; and the
state after a reset cycle is the reset table, whatever the state was and whatever the word's other bits are. -/
def Obligations.ResetWritesEveryField : Prop :=
  (∀ w : Word, .reset ∈ decode w ↔ w.getLsbD 0 = true) ∧
  ∀ s : State,
    let table : Regs :=
      { dbState := .idle, holdCnt := 0, lvlPrev := false, primed := false, confKnown := false, confLvl := false,
        tiltState := .unknown, tiltChgValid := false, tiltChgTilted := false, q := [], sndState := .idle, sndCur := 0,
        lastSent := 0,
        ctrl :=
          { invEn := true, tiltBitPol := false, unkAsTilted := false, tiltLvlInv := s.params.pTiltLvlInv,
            tiltBit := s.params.pTiltBit },
        holdMs := s.params.pHoldMs }
    exec .reset s = .next { s with nxt := table } ∧
    (s.word.getLsbD 0 = true → ∃ t : State, step s = .next t ∧ t.now = table)

/-- R261, R115: after a reset cycle what the machine does is a function of the build parameters and of the words that
follow: two machines with the same parameters and the same words, the first of them a reset word, agree after any number
of these words, whatever their states were. (CFG_RDATA in the reset cycle itself still shows the earlier state, R260.) -/
def Obligations.ResetForgetsThePast : Prop :=
  ∀ (s s' : State) (w : Word) (ws : List Word) (n : Nat),
    s.params = s'.params → s.stim = w :: ws → s'.stim = w :: ws → w.getLsbD 0 = true → n ≤ ws.length →
    ∃ t t' : State, runSteps (n + 1) s = .next t ∧ runSteps (n + 1) s' = .next t' ∧
      t.now = t'.now ∧ t.nxt = t'.nxt ∧ t.stim = t'.stim ∧ (1 ≤ n → t.rdata = t'.rdata)

/-- R92 read with the model's choice of notes/assumptions/10.md: an operation that is not enabled changes nothing. -/
def Obligations.OperationsNotEnabledChangeNothing : Prop :=
  ∀ (i : Instr) (s : State), condition i s = false → exec i s = .next s

/-- R112: every operation answers a next state, leaves `S`, the parameters, the words to come and the counter alone, and
writes only the fields that its part of the cycle owns. -/
def Obligations.OperationsOwnTheirFields : Prop :=
  ∀ (i : Instr) (s : State), ∃ t : State, exec i s = .next t ∧
    t.params = s.params ∧ t.now = s.now ∧ t.stim = s.stim ∧ t.cycle = s.cycle ∧
    (group i ≠ .regRead → t.rdata = s.rdata) ∧
    (group i ≠ .pack → t.r = s.r) ∧
    (group i ∉ [.dequeue, .sender] → t.q1 = s.q1) ∧
    (group i ∉ [.reset, .regWrite] → t.nxt.ctrl = s.nxt.ctrl ∧ t.nxt.holdMs = s.nxt.holdMs) ∧
    (group i ∉ [.reset, .debounceSample] → t.nxt.lvlPrev = s.nxt.lvlPrev ∧ t.nxt.primed = s.nxt.primed) ∧
    (group i ∉ [.reset, .debounce] →
      t.nxt.dbState = s.nxt.dbState ∧ t.nxt.holdCnt = s.nxt.holdCnt ∧ t.nxt.confKnown = s.nxt.confKnown ∧
      t.nxt.confLvl = s.nxt.confLvl ∧ t.nxt.tiltState = s.nxt.tiltState ∧ t.nxt.tiltChgValid = s.nxt.tiltChgValid ∧
      t.nxt.tiltChgTilted = s.nxt.tiltChgTilted) ∧
    (group i ∉ [.reset, .sender] →
      t.nxt.sndState = s.nxt.sndState ∧ t.nxt.sndCur = s.nxt.sndCur ∧ t.nxt.lastSent = s.nxt.lastSent) ∧
    (group i ∉ [.reset, .dequeue, .sender, .enqueue] → t.nxt.q = s.nxt.q)

/-- R92: two operations of one group are never enabled together; in a cycle without RST exactly one operation of each of the
groups "debounce", "sender" and "debounce sample" is enabled; in a reset cycle RESET and CFG_READ are all. -/
def Obligations.OneOperationOfEachGroup : Prop :=
  ∀ (w : Word) (s : State),
    let enabled := (decode w).filter fun i => condition i s
    let count := fun g : Group => (enabled.filter fun i => group i == g).length
    (∀ g : Group, count g ≤ 1) ∧
    (w.getLsbD 0 = false → count .debounce = 1 ∧ count .sender = 1 ∧ count .debounceSample = 1) ∧
    (w.getLsbD 0 = true → enabled = [.reset, .cfgRead (w.extractLsb' 8 3)])

/-! ### The register port -/

/-- R220: CFG_READ is selected by every word, with the word's CFG_IDX, drives CFG_RDATA with the register's content at the
start of the cycle, and writes no state. -/
def Obligations.CfgReadDrivesTheRegister : Prop :=
  (∀ (w : Word) (i : BitVec 3), .cfgRead i ∈ decode w ↔ i = w.extractLsb' 8 3) ∧
  ∀ s : State,
    let b := fun x : Bool => BitVec.ofBool x
    exec (.cfgRead 0) s =
      .next { s with
        rdata := 0#20 ++ s.now.ctrl.tiltBit ++ 0#4 ++ b s.now.ctrl.tiltLvlInv ++ b s.now.ctrl.unkAsTilted ++
          b s.now.ctrl.tiltBitPol ++ b s.now.ctrl.invEn } ∧
    exec (.cfgRead 1) s = .next { s with rdata := 0#16 ++ s.now.holdMs } ∧
    exec (.cfgRead 2) s =
      .next { s with
        rdata := 0#16 ++ BitVec.ofNat 8 s.now.q.length ++ b s.now.tiltChgTilted ++ b s.now.tiltChgValid ++
          b s.now.confLvl ++ b s.now.confKnown ++ s.now.tiltState.code ++ b (s.now.sndState == .tx) ++
          b (s.now.dbState == .holding) } ∧
    exec (.cfgRead 3) s = .next { s with rdata := s.params.clkPerMs ++ s.params.cap } ∧
    exec (.cfgRead 4) s = .next { s with rdata := s.now.lastSent.extractLsb' 0 32 } ∧
    exec (.cfgRead 5) s = .next { s with rdata := 0#24 ++ s.now.lastSent.extractLsb' 32 8 } ∧
    exec (.cfgRead 6) s = .next { s with rdata := 0#32 } ∧
    exec (.cfgRead 7) s = .next { s with rdata := 0#32 }

/-- R221: CFG_WR_CTRL writes the five fields of CTRL from the data's bits and nothing else. -/
def Obligations.CtrlWriteReplacesTheFields : Prop :=
  (∀ (w : Word) (d : RegWord), .cfgWrCtrl d ∈ decode w ↔
    w.getLsbD 0 = false ∧ w.getLsbD 5 = true ∧ w.extractLsb' 8 3 = 0 ∧ d = w.extractLsb' 64 32) ∧
  ∀ (d : RegWord) (s : State), exec (.cfgWrCtrl d) s =
    .next { s with
      nxt := { s.nxt with
        ctrl :=
          { invEn := d.getLsbD 0, tiltBitPol := d.getLsbD 1, unkAsTilted := d.getLsbD 2, tiltLvlInv := d.getLsbD 3,
            tiltBit := d.extractLsb' 8 4 } } }

/-- R222: CFG_WR_HOLD writes HOLD_MS from the data's low 16 bits and nothing else. -/
def Obligations.HoldWriteReplacesTheHoldTime : Prop :=
  (∀ (w : Word) (d : RegWord), .cfgWrHold d ∈ decode w ↔
    w.getLsbD 0 = false ∧ w.getLsbD 5 = true ∧ w.extractLsb' 8 3 = 1 ∧ d = w.extractLsb' 64 32) ∧
  ∀ (d : RegWord) (s : State), exec (.cfgWrHold d) s =
    .next { s with nxt := { s.nxt with holdMs := d.extractLsb' 0 16 } }

/-- R223: a write to a read-only or reserved index has no effect. -/
def Obligations.ReadOnlyWritesAreIgnored : Prop :=
  (∀ (w : Word) (d : RegWord),
    let write := w.getLsbD 0 = false ∧ w.getLsbD 5 = true ∧ d = w.extractLsb' 64 32
    (.cfgWrStatus d ∈ decode w ↔ write ∧ w.extractLsb' 8 3 = 2) ∧
    (.cfgWrParam d ∈ decode w ↔ write ∧ w.extractLsb' 8 3 = 3) ∧
    (.cfgWrLastLo d ∈ decode w ↔ write ∧ w.extractLsb' 8 3 = 4) ∧
    (.cfgWrLastHi d ∈ decode w ↔ write ∧ w.extractLsb' 8 3 = 5) ∧
    (.cfgWrRsvd6 d ∈ decode w ↔ write ∧ w.extractLsb' 8 3 = 6) ∧
    (.cfgWrRsvd7 d ∈ decode w ↔ write ∧ w.extractLsb' 8 3 = 7)) ∧
  ∀ (d : RegWord) (s : State),
    exec (.cfgWrStatus d) s = .next s ∧ exec (.cfgWrParam d) s = .next s ∧ exec (.cfgWrLastLo d) s = .next s ∧
    exec (.cfgWrLastHi d) s = .next s ∧ exec (.cfgWrRsvd6 d) s = .next s ∧ exec (.cfgWrRsvd7 d) s = .next s

/-- R38: each field of STATUS, by its bit positions, and its value after reset. The queue count is the queue's length
wherever that fits 8 bits. -/
def Obligations.StatusBitsAreTheStateFields : Prop :=
  (∀ p : Params, regRead p (Regs.reset p) 2 = 0) ∧
  ∀ (p : Params) (S : Regs),
    let v := regRead p S 2
    v.getLsbD 0 = decide (S.dbState = .holding) ∧
    v.getLsbD 1 = decide (S.sndState = .tx) ∧
    v.extractLsb' 2 2 =
      (match S.tiltState with
      | .unknown => 0b00
      | .flat => 0b01
      | .tilted => 0b10
      | .code11 => 0b11) ∧
    v.getLsbD 4 = S.confKnown ∧ v.getLsbD 5 = S.confLvl ∧
    v.getLsbD 6 = S.tiltChgValid ∧ v.getLsbD 7 = S.tiltChgTilted ∧
    (v.extractLsb' 8 8).toNat = S.q.length % 256 ∧ v.extractLsb' 16 16 = 0

/-- R62: LAST_LO and LAST_HI hold report byte `k` at bits `8(k mod 4)+7 : 8(k mod 4)` of the register of index
`4 + k div 4`; LAST_HI's other bits read 0 (R41). -/
def Obligations.LastRegistersHoldTheReportBytes : Prop :=
  ∀ (p : Params) (S : Regs),
    (∀ k : Nat, k < 5 →
      (regRead p S (BitVec.ofNat 3 (4 + k / 4))).extractLsb' (8 * (k % 4)) 8 = reportByte S.lastSent k) ∧
    (regRead p S 5).extractLsb' 8 24 = 0

/-- R224, R270: in a cycle that writes a register, CFG_RDATA shows the value before the write; a read from the next cycle on
shows what the write left: the writable fields of CTRL and HOLD as written, the reserved bits 0 (R36, R37), and nothing
changed for any other index (R223). -/
def Obligations.RegisterWritesActFromTheNextCycle : Prop :=
  ∀ s : State, s.word.getLsbD 0 = false → s.word.getLsbD 5 = true →
    let idx := s.word.extractLsb' 8 3
    let data : RegWord := s.word.extractLsb' 64 32
    ∃ t : State, step s = .next t ∧ t.rdata = regRead s.params s.now idx ∧
      regRead t.params t.now 0 = (if idx = 0 then data &&& 0x00000f0f#32 else regRead s.params s.now 0) ∧
      regRead t.params t.now 1 = (if idx = 1 then data &&& 0x0000ffff#32 else regRead s.params s.now 1)

/-! ### The debounce engine -/

/-- R130: DB_SAMPLE runs in every cycle without RST and stores the level and the `primed` bit; the edge that the other
operations of the cycle read is a level that differs from the previous sample, while `primed` is set. -/
def Obligations.SampleStoresTheLevel : Prop :=
  (∀ (w : Word) (l : Bool), .dbSample l ∈ decode w ↔ w.getLsbD 0 = false ∧ l = w.getLsbD 1) ∧
  (∀ s : State, condition (.dbSample true) s = true ∧ condition (.dbSample false) s = true) ∧
  (∀ (S : Regs) (l : Bool), edge S l = true ↔ S.primed = true ∧ l ≠ S.lvlPrev) ∧
  ∀ (l : Bool) (s : State), exec (.dbSample l) s = .next { s with nxt := { s.nxt with lvlPrev := l, primed := true } }

/-- R139: DB_QUIET, no edge in Idle: only the pulse ends. -/
def Obligations.QuietOnlyEndsThePulse : Prop :=
  (∀ (w : Word) (l : Bool), .dbQuiet l ∈ decode w ↔ w.getLsbD 0 = false ∧ l = w.getLsbD 1) ∧
  ∀ (l : Bool) (s : State), s.now.dbState = .idle → (s.now.primed = false ∨ l = s.now.lvlPrev) →
    exec (.dbQuiet l) s = .next { s with nxt := { s.nxt with tiltChgValid := false } }

/-- R132: DB_EDGE_ARM, an edge in Idle with `N >= 1`, arms the timer with `N - 1`. -/
def Obligations.EdgeArmsTheTimer : Prop :=
  (∀ (w : Word) (l : Bool), .dbEdgeArm l ∈ decode w ↔ w.getLsbD 0 = false ∧ l = w.getLsbD 1) ∧
  ∀ (l : Bool) (s : State),
    let n := s.now.holdMs.toNat * s.params.clkPerMs.toNat
    s.now.dbState = .idle → s.now.primed = true → l ≠ s.now.lvlPrev → 1 ≤ n →
    exec (.dbEdgeArm l) s =
      .next { s with nxt := { s.nxt with dbState := .holding, holdCnt := n - 1, tiltChgValid := false } }

/-- R134, R138: DB_EDGE_IMM, an edge in Idle with `N = 0`, dispatches the level of its cycle at once. -/
def Obligations.EdgeWithoutHoldDispatches : Prop :=
  (∀ (w : Word) (l : Bool), .dbEdgeImm l ∈ decode w ↔ w.getLsbD 0 = false ∧ l = w.getLsbD 1) ∧
  ∀ (l : Bool) (s : State),
    s.now.dbState = .idle → s.now.primed = true → l ≠ s.now.lvlPrev →
    s.now.holdMs.toNat * s.params.clkPerMs.toNat = 0 →
    exec (.dbEdgeImm l) s =
      .next { s with
        nxt := { s.nxt with
          confKnown := true, confLvl := l,
          tiltState := if (l ^^ s.now.ctrl.tiltLvlInv) = true then .tilted else .flat,
          tiltChgValid := true, tiltChgTilted := l ^^ s.now.ctrl.tiltLvlInv } }

/-- R133: DB_EDGE_MASKED, an edge while Holding, changes nothing. -/
def Obligations.EdgeWhileHoldingIsMasked : Prop :=
  (∀ (w : Word) (l : Bool), .dbEdgeMasked l ∈ decode w ↔ w.getLsbD 0 = false ∧ l = w.getLsbD 1) ∧
  ∀ (l : Bool) (s : State), s.now.dbState = .holding → s.now.primed = true → l ≠ s.now.lvlPrev →
    exec (.dbEdgeMasked l) s = .next s

/-- R135: DB_COUNT counts one cycle. -/
def Obligations.HoldTimerCountsDown : Prop :=
  (∀ (w : Word) (l : Bool), .dbCount l ∈ decode w ↔ w.getLsbD 0 = false ∧ l = w.getLsbD 1) ∧
  ∀ (l : Bool) (s : State), s.now.dbState = .holding → s.now.holdCnt ≠ 0 →
    exec (.dbCount l) s =
      .next { s with nxt := { s.nxt with holdCnt := s.now.holdCnt - 1, tiltChgValid := false } }

/-- R136, R138: DB_EXPIRE_CONFIRM: on expiry with a level that differs from the confirmed one, the level is dispatched and
the engine is Idle. -/
def Obligations.ExpiryConfirmsAChange : Prop :=
  (∀ (w : Word) (l : Bool), .dbExpireConfirm l ∈ decode w ↔ w.getLsbD 0 = false ∧ l = w.getLsbD 1) ∧
  ∀ (l : Bool) (s : State), s.now.dbState = .holding → s.now.holdCnt = 0 →
    (s.now.confKnown = false ∨ s.now.confLvl ≠ l) →
    exec (.dbExpireConfirm l) s =
      .next { s with
        nxt := { s.nxt with
          dbState := .idle, confKnown := true, confLvl := l,
          tiltState := if (l ^^ s.now.ctrl.tiltLvlInv) = true then .tilted else .flat,
          tiltChgValid := true, tiltChgTilted := l ^^ s.now.ctrl.tiltLvlInv } }

/-- R137: DB_EXPIRE_DISCARD: on expiry with the confirmed level, the engine is Idle and nothing is dispatched. -/
def Obligations.ExpiryDiscardsABounce : Prop :=
  (∀ (w : Word) (l : Bool), .dbExpireDiscard l ∈ decode w ↔ w.getLsbD 0 = false ∧ l = w.getLsbD 1) ∧
  ∀ (l : Bool) (s : State), s.now.dbState = .holding → s.now.holdCnt = 0 → s.now.confKnown = true →
    s.now.confLvl = l →
    exec (.dbExpireDiscard l) s = .next { s with nxt := { s.nxt with dbState := .idle, tiltChgValid := false } }

/-- R141, R143, R144, R248: an edge in Idle with `N = n >= 1` starts a hold window. Through cycle `t0 + n - 1` the engine
holds, the timer counts down exactly, and nothing is dispatched, whatever the levels are. In cycle `t0 + n` there is one
decision: the level `l` of that cycle is dispatched if it differs from the confirmed level (or none is confirmed yet),
and else nothing is; the engine is Idle. The words after the edge may do anything but reset. -/
def Obligations.HoldWindowEndsInOneDecision : Prop :=
  ∀ (s : State) (n : Nat),
    n = s.now.holdMs.toNat * s.params.clkPerMs.toNat → 1 ≤ n →
    s.now.dbState = .idle → s.now.primed = true →
    n < s.stim.length → (∀ k, k ≤ n → (s.stim.getD k 0).getLsbD 0 = false) →
    (s.stim.getD 0 0).getLsbD 1 ≠ s.now.lvlPrev →
    (∀ k, k < n → ∃ t : State, runSteps (k + 1) s = .next t ∧
      t.now.dbState = .holding ∧ t.now.holdCnt = n - 1 - k ∧ t.now.tiltChgValid = false ∧
      t.now.tiltState = s.now.tiltState ∧ t.now.confKnown = s.now.confKnown ∧ t.now.confLvl = s.now.confLvl) ∧
    ∃ u t : State, runSteps n s = .next u ∧ runSteps (n + 1) s = .next t ∧ t.now.dbState = .idle ∧
      let l := (s.stim.getD n 0).getLsbD 1
      if s.now.confKnown = false ∨ s.now.confLvl ≠ l then
        t.now.tiltChgValid = true ∧ t.now.confKnown = true ∧ t.now.confLvl = l ∧
        t.now.tiltState = (if (l ^^ u.now.ctrl.tiltLvlInv) = true then .tilted else .flat) ∧
        t.now.tiltChgTilted = (l ^^ u.now.ctrl.tiltLvlInv)
      else
        t.now.tiltChgValid = false ∧ t.now.confKnown = s.now.confKnown ∧ t.now.confLvl = s.now.confLvl ∧
        t.now.tiltState = s.now.tiltState

/-- R142: with hold time 0 in Idle, a cycle dispatches exactly if it has an edge, and then the level of that cycle. -/
def Obligations.ZeroHoldDispatchesEveryEdge : Prop :=
  ∀ s : State, s.word.getLsbD 0 = false → s.now.dbState = .idle → s.now.holdMs = 0 →
    let l := s.word.getLsbD 1
    let isEdge := s.now.primed = true ∧ l ≠ s.now.lvlPrev
    ∃ t : State, step s = .next t ∧ t.now.dbState = .idle ∧
      (t.now.tiltChgValid = true ↔ isEdge) ∧ (isEdge → t.now.confKnown = true ∧ t.now.confLvl = l)

/-- R27, R26, R33: in a cycle without RST, TiltState, the confirmed level and TILT_CHG_TILTED change only with a dispatch,
which raises TILT_CHG_VALID for the next cycle. -/
def Obligations.TiltChangesOnlyWithADispatch : Prop :=
  ∀ s : State, s.word.getLsbD 0 = false → ∃ t : State, step s = .next t ∧
    (t.now.tiltChgValid = false →
      t.now.tiltState = s.now.tiltState ∧ t.now.confKnown = s.now.confKnown ∧ t.now.confLvl = s.now.confLvl ∧
      t.now.tiltChgTilted = s.now.tiltChgTilted)

/-! ### The packer -/

/-- R160 to R164: PACK hands over the report of the word's GamepadState, composed with the tilt bit that the TiltState and
CTRL at the start of the cycle give, and writes no state. For the TiltState code `11`, which no rule writes, the tilt
bit is some bit (93_implementation_defined.md I4; notes/assumptions/8.md). -/
def Obligations.PackHandsOverTheReport : Prop :=
  (∀ (w : Word) (g : Gamepad), .pack g ∈ decode w ↔
    w.getLsbD 0 = false ∧ w.getLsbD 2 = true ∧ g.btn = w.extractLsb' 16 16 ∧ g.ax = w.extractLsb' 32 8 ∧
    g.ay = w.extractLsb' 40 8 ∧ g.aux = w.extractLsb' 48 8) ∧
  ∀ (g : Gamepad) (s : State), ∃ tb : Bool,
    (s.now.tiltState = .tilted → tb = s.now.ctrl.tiltBitPol) ∧
    (s.now.tiltState = .flat → tb = !s.now.ctrl.tiltBitPol) ∧
    (s.now.tiltState = .unknown → tb = (!s.now.ctrl.unkAsTilted ^^ s.now.ctrl.tiltBitPol)) ∧
    let p := s.now.ctrl.tiltBit.toNat
    let c : BitVec 16 := (g.btn &&& ~~~(0x0001#16 <<< p)) ||| ((BitVec.ofBool tb).setWidth 16 <<< p)
    let b : BitVec 16 := if s.now.ctrl.invEn = true then ~~~c else c
    exec (.pack g) s = .next { s with r := some (g.aux ++ g.ay ++ g.ax ++ b.extractLsb' 8 8 ++ b.extractLsb' 0 8) }

/-- R161: the tilt bit replaces the producer's bit at `CTRL.TILT_BIT`; every other bit is the producer's. -/
def Obligations.ComposeReplacesOnlyTheTiltBit : Prop :=
  ∀ (btn : BitVec 16) (tb : Bool) (c : Ctrl) (i : Nat), i < 16 →
    (compose btn tb c).getLsbD i = if i = c.tiltBit.toNat then tb else btn.getLsbD i

/-- R166: the emitted tilt bit under each polarity setting, and R81: every other button bit is inverted exactly if INV_EN
is set. -/
def Obligations.EmittedBitsFollowThePolarities : Prop :=
  ∀ (S : Regs) (free : Bool) (g : Gamepad),
    let b : BitVec 16 := (packReport S free g).extractLsb' 0 16
    let p := S.ctrl.tiltBit.toNat
    (S.tiltState = .tilted → b.getLsbD p = (S.ctrl.tiltBitPol ^^ S.ctrl.invEn)) ∧
    (S.tiltState = .flat → b.getLsbD p = !(S.ctrl.tiltBitPol ^^ S.ctrl.invEn)) ∧
    ∀ i, i < 16 → i ≠ p → b.getLsbD i = (g.btn.getLsbD i ^^ S.ctrl.invEn)

/-- R165: the golden vector, for every position `k` of the button-plus bit other than the tilt bit's. -/
def Obligations.GoldenVectorPacks : Prop :=
  ∀ (S : Regs) (free : Bool) (k : Nat), k < 16 → k ≠ S.ctrl.tiltBit.toNat →
    S.tiltState = .flat → S.ctrl.invEn = true → S.ctrl.tiltBitPol = false →
    let r := packReport S free { btn := 1#16 <<< k, ax := 10, ay := 20, aux := 3 }
    reportByte r 2 = 0x0a ∧ reportByte r 3 = 0x14 ∧ reportByte r 4 = 0x03 ∧
    r.extractLsb' 0 16 = ~~~((1#16 <<< k) ||| (1#16 <<< S.ctrl.tiltBit.toNat))

/-- R163, R61: the bytes of a serialised report. That the low byte of the button field is the one at offset 0 rests on the
meaning of "little-endian", which R60 and 93_implementation_defined.md G1 mark as general knowledge (PRESUMED,
notes/assumptions/27.md). -/
def Obligations.ReportBytesInWireOrder : Prop :=
  ∀ (b : BitVec 16) (ax ay aux : BitVec 8),
    let r := serialise b ax ay aux
    reportByte r 0 = b.extractLsb' 0 8 ∧ reportByte r 1 = b.extractLsb' 8 8 ∧ reportByte r 2 = ax ∧
    reportByte r 3 = ay ∧ reportByte r 4 = aux

/-! ### The queue -/

/-- R181: ENQ, with room after the dequeue, appends the report packed in the cycle. -/
def Obligations.EnqueueAppendsTheReport : Prop :=
  (∀ w : Word, .enq ∈ decode w ↔ w.getLsbD 0 = false ∧ w.getLsbD 2 = true) ∧
  ∀ (s : State) (r : Report), s.r = some r → s.q1.length < s.params.cap.toNat →
    exec .enq s = .next { s with nxt := { s.nxt with q := s.q1 ++ [r] } }

/-- R182: ENQ_PURGE, with the queue full after the dequeue, leaves the new report alone in the queue. -/
def Obligations.EnqueueIntoAFullQueuePurges : Prop :=
  (∀ w : Word, .enqPurge ∈ decode w ↔ w.getLsbD 0 = false ∧ w.getLsbD 2 = true) ∧
  ∀ (s : State) (r : Report), s.r = some r → s.q1.length = s.params.cap.toNat →
    exec .enqPurge s = .next { s with nxt := { s.nxt with q := [r] } }

/-- R183: DEQ takes the oldest report off; it is enabled exactly where SND_FETCH_DUP or SND_FETCH_NEW is. -/
def Obligations.DequeueTakesTheOldest : Prop :=
  (∀ w : Word, .deq ∈ decode w ↔ w.getLsbD 0 = false) ∧
  (∀ s : State, condition .deq s = (condition .sndFetchDup s || condition .sndFetchNew s)) ∧
  ∀ (s : State) (h : Report) (rest : List Report), s.now.sndState = .idle → s.now.q = h :: rest →
    exec .deq s = .next { s with q1 := rest, nxt := { s.nxt with q := rest } }

/-- R186, R187, R69: every cycle with IN_VALID inserts its report as the newest of the queue, packed from CTRL and the
TiltState at the start of the cycle; a queue within its capacity stays within it. -/
def Obligations.EveryRequestEntersAsTheNewest : Prop :=
  ∀ s : State, s.word.getLsbD 0 = false → s.word.getLsbD 2 = true → ∃ t : State, step s = .next t ∧
    t.now.q.getLast? =
      some (packReport s.now (Config.tiltBitOfCode11 s.cycle) (Stim.ofWord s.word).pad) ∧
    (1 ≤ s.params.cap.toNat → s.now.q.length ≤ s.params.cap.toNat → t.now.q.length ≤ s.params.cap.toNat)

/-- R184: with a dequeue and an enqueue in one cycle, the dequeue is first, so a full queue is not purged: the oldest
report goes to the sender and the new one is appended to the rest. -/
def Obligations.DequeueComesBeforeEnqueue : Prop :=
  ∀ (s : State) (h : Report) (rest : List Report),
    s.word.getLsbD 0 = false → s.word.getLsbD 2 = true →
    s.now.sndState = .idle → s.now.q = h :: rest → s.now.q.length ≤ s.params.cap.toNat →
    ∃ t : State, step s = .next t ∧
      t.now.q = rest ++ [packReport s.now (Config.tiltBitOfCode11 s.cycle) (Stim.ofWord s.word).pad] ∧
      (h ≠ s.now.lastSent → t.now.sndCur = h ∧ t.now.sndState = .tx)

/-- R180, R28: the physical queue (a storage array, a head index and a count, all index arithmetic modulo CAP) keeps its
ranges and does to the sequence it stands for what the primitives do. -/
def Obligations.RingStorageRefinesTheSequence : Prop :=
  ∀ (cap : Nat) (g : RingBuffer) (r : Report), 1 ≤ cap → g.WF cap →
    (g.toSeq cap).length = g.count ∧
    (0 < g.count → qHead (g.toSeq cap) = some g.first ∧ (g.pop cap).WF cap ∧ (g.pop cap).toSeq cap = qPop (g.toSeq cap)) ∧
    (g.count < cap → (g.push cap r).WF cap ∧ (g.push cap r).toSeq cap = qPush (g.toSeq cap) r) ∧
    g.purge.WF cap ∧ g.purge.toSeq cap = qPurge (g.toSeq cap)

/-! ### The sender -/

/-- R206, R202, R205: SND_EMPTY, SND_WAIT and SND_DONE_IGNORED write nothing. -/
def Obligations.WaitingSenderChangesNothing : Prop :=
  (∀ w : Word, .sndEmpty ∈ decode w ↔ w.getLsbD 0 = false) ∧
  (∀ w : Word, .sndWait ∈ decode w ↔ w.getLsbD 0 = false ∧ w.getLsbD 3 = false) ∧
  (∀ (w : Word) (ok : Bool), .sndDoneIgnored ok ∈ decode w ↔
    w.getLsbD 0 = false ∧ w.getLsbD 3 = true ∧ ok = w.getLsbD 4) ∧
  (∀ s : State, s.now.sndState = .idle → s.now.q = [] → exec .sndEmpty s = .next s) ∧
  (∀ s : State, s.now.sndState = .tx → exec .sndWait s = .next s) ∧
  ∀ (s : State) (ok : Bool), s.now.sndState = .idle → exec (.sndDoneIgnored ok) s = .next s

/-- R200: SND_FETCH_DUP takes a report equal to the last one sent off the queue and discards it. -/
def Obligations.FetchedDuplicateIsDiscarded : Prop :=
  (∀ w : Word, .sndFetchDup ∈ decode w ↔ w.getLsbD 0 = false) ∧
  ∀ (s : State) (rest : List Report), s.now.sndState = .idle → s.now.q = s.now.lastSent :: rest →
    exec .sndFetchDup s = .next { s with q1 := rest, nxt := { s.nxt with q := rest } }

/-- R201: SND_FETCH_NEW takes a report that differs from the last one sent off the queue and starts its write. -/
def Obligations.FetchedNewReportStartsAWrite : Prop :=
  (∀ w : Word, .sndFetchNew ∈ decode w ↔ w.getLsbD 0 = false) ∧
  ∀ (s : State) (h : Report) (rest : List Report), s.now.sndState = .idle → s.now.q = h :: rest →
    h ≠ s.now.lastSent →
    exec .sndFetchNew s =
      .next { s with q1 := rest, nxt := { s.nxt with q := rest, sndCur := h, sndState := .tx } }

/-- R203: SND_DONE_OK records the report as sent and frees the sender. -/
def Obligations.SuccessfulWriteIsRecorded : Prop :=
  (∀ w : Word, .sndDoneOk ∈ decode w ↔ w.getLsbD 0 = false ∧ w.getLsbD 3 = true ∧ w.getLsbD 4 = true) ∧
  ∀ s : State, s.now.sndState = .tx →
    exec .sndDoneOk s = .next { s with nxt := { s.nxt with lastSent := s.now.sndCur, sndState := .idle } }

/-- R204: SND_DONE_FAIL frees the sender and leaves `last_sent` and everything else alone. -/
def Obligations.FailedWriteIsNotRecorded : Prop :=
  (∀ w : Word, .sndDoneFail ∈ decode w ↔ w.getLsbD 0 = false ∧ w.getLsbD 3 = true ∧ w.getLsbD 4 = false) ∧
  ∀ s : State, s.now.sndState = .tx → exec .sndDoneFail s = .next { s with nxt := { s.nxt with sndState := .idle } }

/-- R210: a successful write's report differs from that of the successful write before it. -/
def Obligations.ConsecutiveSuccessfulWritesDiffer : Prop :=
  ∀ s : State, s.Inv → s.now.sndState = .tx →
    s.word.getLsbD 0 = false → s.word.getLsbD 3 = true → s.word.getLsbD 4 = true →
    ∃ t : State, step s = .next t ∧ t.now.sndState = .idle ∧ t.now.lastSent = s.now.sndCur ∧
      t.now.lastSent ≠ s.now.lastSent

/-- R208, the part after the first write: while only the report last sent is queued and packed, no write starts, whatever
the transport and the register host do. -/
def Obligations.DuplicatesStartNoWrite : Prop :=
  ∀ (n : Nat) (s : State) (x : Report), s.now.OnlyDuplicatesOf x → n ≤ s.stim.length →
    (∀ k, k < n → ∀ u : State, runSteps k s = .next u →
      u.word.getLsbD 0 = false ∧
      (u.word.getLsbD 2 = true →
        packReport u.now (Config.tiltBitOfCode11 u.cycle) (Stim.ofWord u.word).pad = x)) →
    ∃ t : State, runSteps n s = .next t ∧ t.now.OnlyDuplicatesOf x

/-- R117, R202: a transport that never asserts TX_DONE holds the sender in TX with its report, for any number of cycles
without RST, while the queue keeps within its capacity. -/
def Obligations.SenderWaitsForTheTransport : Prop :=
  ∀ (n : Nat) (s : State), s.now.sndState = .tx → n ≤ s.stim.length →
    (∀ k, k < n → (s.stim.getD k 0).getLsbD 0 = false ∧ (s.stim.getD k 0).getLsbD 3 = false) →
    1 ≤ s.params.cap.toNat → s.now.q.length ≤ s.params.cap.toNat →
    ∃ t : State, runSteps n s = .next t ∧ t.now.sndState = .tx ∧ t.now.sndCur = s.now.sndCur ∧
      t.now.lastSent = s.now.lastSent ∧ t.now.q.length ≤ s.params.cap.toNat

/-- R209: after a failed write a report equal to the failed one, next in the queue, is written again, since it still
differs from the last one sent. -/
def Obligations.FailedReportIsTriedAgain : Prop :=
  ∀ (s : State) (w w' : Word) (ws : List Word) (rest : List Report),
    s.stim = w :: w' :: ws → s.now.sndState = .tx → s.now.q = s.now.sndCur :: rest →
    s.now.sndCur ≠ s.now.lastSent →
    w.getLsbD 0 = false → w.getLsbD 2 = false → w.getLsbD 3 = true → w.getLsbD 4 = false → w'.getLsbD 0 = false →
    ∃ u t : State, runSteps 1 s = .next u ∧ u.now.sndState = .idle ∧ u.now.lastSent = s.now.lastSent ∧
      runSteps 2 s = .next t ∧ t.now.sndState = .tx ∧ t.now.sndCur = s.now.sndCur

/-! ### Quiescence, traces, ports -/

/-- R115: in a quiescent state, a word with only TILT_IN, equal to `lvl_prev`, changes no field but `primed`. -/
def Obligations.QuiescentStateStays : Prop :=
  ∀ s : State, s.now.Quiescent → s.word &&& ~~~2#128 = 0#128 → s.word.getLsbD 1 = s.now.lvlPrev →
    ∃ t : State, step s = .next t ∧ t.now = { s.now with primed := true }

/-- R115's parenthesis "(or `primed = 0`)", read as "whatever TILT_IN is while `primed = 0`". Expected to FAIL: DB_SAMPLE
stores the level in every cycle (R130; notes/assumptions/17.md). -/
def Obligations.UnprimedQuiescentStateKeepsItsLevel : Prop :=
  ∀ s : State, s.now.Quiescent → s.word &&& ~~~2#128 = 0#128 → s.now.primed = false →
    ∃ t : State, step s = .next t ∧ t.now = { s.now with primed := true }

/-- R97: the encoding of a line. For every record of fields the word is the stated sum of the shifted fields; and a line
whose items pass the checks is assembled into one word, the one of the line's fields, after a line whose TILT_IN was
`prev`. -/
def Obligations.TraceLineWordIsTheStatedEncoding : Prop :=
  let b := fun x : Bool => (BitVec.ofBool x).setWidth 128
  let encoding := fun f : Stim =>
    b f.rst ||| b f.tiltIn <<< 1 ||| b f.inValid <<< 2 ||| b f.txDone <<< 3 ||| b f.txOk <<< 4 ||| b f.cfgWe <<< 5 |||
      f.cfgIdx.setWidth 128 <<< 8 ||| f.pad.btn.setWidth 128 <<< 16 ||| f.pad.ax.setWidth 128 <<< 32 |||
      f.pad.ay.setWidth 128 <<< 40 ||| f.pad.aux.setWidth 128 <<< 48 ||| f.cfgWdata.setWidth 128 <<< 64
  (∀ f : Stim, f.toWord = encoding f) ∧
  ∀ (prev : Bool) (items : List TraceItem), checkItems items = .ok () →
    assembleItems prev [items] = .ok [encoding (lineFields prev items)]

/-- R98: the expansions of the pseudo-operations; and R97: a line without items repeats the TILT_IN of the line before. -/
def Obligations.PseudoOperationsExpand : Prop :=
  (TraceLine.reset.expand = .ok [[.rst]]) ∧
  (∀ k, (TraceLine.idle k).expand = .ok (List.replicate k [])) ∧
  (∀ v, (TraceLine.level v).expand = .ok [[.tilt v]]) ∧
  (∀ v k, 1 ≤ k → (TraceLine.hold v k).expand = .ok ([.tilt v] :: List.replicate (k - 1) [])) ∧
  (∀ b x y a, (TraceLine.send b x y a).expand = .ok [[.push b x y a]]) ∧
  (TraceLine.ack.expand = .ok [[.done true]]) ∧ (TraceLine.nak.expand = .ok [[.done false]]) ∧
  ∀ v k, ∃ words, assembleItems v (List.replicate k []) = .ok words ∧ words.length = k ∧
    ∀ w ∈ words, Stim.ofWord w = { Stim.zero with tiltIn := v }

/-- R34: the output ports in a cycle, as functions of the state at its start and of CFG_IDX; CFG_RDATA of the ports is what
the step records (R220). -/
def Obligations.PortsFollowTheState : Prop :=
  ∀ s : State, ∃ t : State, step s = .next t ∧
    let o := ports s (s.word.extractLsb' 8 3)
    o.tiltState = s.now.tiltState.code ∧ o.tiltChgValid = s.now.tiltChgValid ∧
    o.tiltChgTilted = s.now.tiltChgTilted ∧ (o.txValid = true ↔ s.now.sndState = .tx) ∧ o.txData = s.now.sndCur ∧
    o.qCount = BitVec.ofNat 8 s.now.q.length ∧ o.inReady = true ∧ o.cfgRdata = t.rdata
end

