-- ==== Sys2Proof/Laws/State.lean ====
section
/-! SUPPORT. One lemma per field per update of the state, so that no later proof unfolds a record update, and for each shared
operation what it does. -/

namespace Sys2Proof.Machine

@[simp] theorem State.settle_params (s : State) : (s.settle).params = s.params := rfl
@[simp] theorem State.settle_now (s : State) : (s.settle).now = s.now := rfl
@[simp] theorem State.settle_nxt (s : State) : (s.settle).nxt = s.now := rfl
@[simp] theorem State.settle_q1 (s : State) : (s.settle).q1 = s.now.q := rfl
@[simp] theorem State.settle_r (s : State) : (s.settle).r = none := rfl
@[simp] theorem State.settle_rdata (s : State) : (s.settle).rdata = s.rdata := rfl
@[simp] theorem State.settle_stim (s : State) : (s.settle).stim = s.stim := rfl
@[simp] theorem State.settle_cycle (s : State) : (s.settle).cycle = s.cycle := rfl

@[simp] theorem State.endCycle_params (s : State) : (s.endCycle).params = s.params := rfl
@[simp] theorem State.endCycle_now (s : State) : (s.endCycle).now = s.nxt := rfl
@[simp] theorem State.endCycle_nxt (s : State) : (s.endCycle).nxt = s.nxt := rfl
@[simp] theorem State.endCycle_q1 (s : State) : (s.endCycle).q1 = s.nxt.q := rfl
@[simp] theorem State.endCycle_r (s : State) : (s.endCycle).r = none := rfl
@[simp] theorem State.endCycle_rdata (s : State) : (s.endCycle).rdata = s.rdata := rfl
@[simp] theorem State.endCycle_stim (s : State) : (s.endCycle).stim = s.stim.tail := rfl
@[simp] theorem State.endCycle_cycle (s : State) : (s.endCycle).cycle = s.cycle + 1 := rfl

@[simp] theorem State.takeReset_params (s : State) : (s.takeReset).params = s.params := rfl
@[simp] theorem State.takeReset_now (s : State) : (s.takeReset).now = s.now := rfl
@[simp] theorem State.takeReset_nxt (s : State) : (s.takeReset).nxt = Regs.reset s.params := rfl
@[simp] theorem State.takeReset_q1 (s : State) : (s.takeReset).q1 = s.q1 := rfl
@[simp] theorem State.takeReset_r (s : State) : (s.takeReset).r = s.r := rfl
@[simp] theorem State.takeReset_rdata (s : State) : (s.takeReset).rdata = s.rdata := rfl
@[simp] theorem State.takeReset_stim (s : State) : (s.takeReset).stim = s.stim := rfl
@[simp] theorem State.takeReset_cycle (s : State) : (s.takeReset).cycle = s.cycle := rfl

@[simp] theorem State.driveRead_params (i : BitVec 3) (s : State) : (s.driveRead i).params = s.params := rfl
@[simp] theorem State.driveRead_now (i : BitVec 3) (s : State) : (s.driveRead i).now = s.now := rfl
@[simp] theorem State.driveRead_nxt (i : BitVec 3) (s : State) : (s.driveRead i).nxt = s.nxt := rfl
@[simp] theorem State.driveRead_q1 (i : BitVec 3) (s : State) : (s.driveRead i).q1 = s.q1 := rfl
@[simp] theorem State.driveRead_r (i : BitVec 3) (s : State) : (s.driveRead i).r = s.r := rfl
@[simp] theorem State.driveRead_rdata (i : BitVec 3) (s : State) : (s.driveRead i).rdata = regRead s.params s.now i := rfl
@[simp] theorem State.driveRead_stim (i : BitVec 3) (s : State) : (s.driveRead i).stim = s.stim := rfl
@[simp] theorem State.driveRead_cycle (i : BitVec 3) (s : State) : (s.driveRead i).cycle = s.cycle := rfl

@[simp] theorem State.dequeue_params (s : State) : (s.dequeue).params = s.params := rfl
@[simp] theorem State.dequeue_now (s : State) : (s.dequeue).now = s.now := rfl
@[simp] theorem State.dequeue_nxt (s : State) : (s.dequeue).nxt = { s.nxt with q := qPop s.now.q } := rfl
@[simp] theorem State.dequeue_q1 (s : State) : (s.dequeue).q1 = qPop s.now.q := rfl
@[simp] theorem State.dequeue_r (s : State) : (s.dequeue).r = s.r := rfl
@[simp] theorem State.dequeue_rdata (s : State) : (s.dequeue).rdata = s.rdata := rfl
@[simp] theorem State.dequeue_stim (s : State) : (s.dequeue).stim = s.stim := rfl
@[simp] theorem State.dequeue_cycle (s : State) : (s.dequeue).cycle = s.cycle := rfl

@[simp] theorem State.recordSent_params (s : State) : (s.recordSent).params = s.params := rfl
@[simp] theorem State.recordSent_now (s : State) : (s.recordSent).now = s.now := rfl
@[simp] theorem State.recordSent_nxt (s : State) : (s.recordSent).nxt = { s.nxt with lastSent := s.now.sndCur } := rfl
@[simp] theorem State.recordSent_q1 (s : State) : (s.recordSent).q1 = s.q1 := rfl
@[simp] theorem State.recordSent_r (s : State) : (s.recordSent).r = s.r := rfl
@[simp] theorem State.recordSent_rdata (s : State) : (s.recordSent).rdata = s.rdata := rfl
@[simp] theorem State.recordSent_stim (s : State) : (s.recordSent).stim = s.stim := rfl
@[simp] theorem State.recordSent_cycle (s : State) : (s.recordSent).cycle = s.cycle := rfl

@[simp] theorem State.senderIdle_params (s : State) : (s.senderIdle).params = s.params := rfl
@[simp] theorem State.senderIdle_now (s : State) : (s.senderIdle).now = s.now := rfl
@[simp] theorem State.senderIdle_nxt (s : State) : (s.senderIdle).nxt = { s.nxt with sndState := .idle } := rfl
@[simp] theorem State.senderIdle_q1 (s : State) : (s.senderIdle).q1 = s.q1 := rfl
@[simp] theorem State.senderIdle_r (s : State) : (s.senderIdle).r = s.r := rfl
@[simp] theorem State.senderIdle_rdata (s : State) : (s.senderIdle).rdata = s.rdata := rfl
@[simp] theorem State.senderIdle_stim (s : State) : (s.senderIdle).stim = s.stim := rfl
@[simp] theorem State.senderIdle_cycle (s : State) : (s.senderIdle).cycle = s.cycle := rfl

@[simp] theorem State.engineIdle_params (s : State) : (s.engineIdle).params = s.params := rfl
@[simp] theorem State.engineIdle_now (s : State) : (s.engineIdle).now = s.now := rfl
@[simp] theorem State.engineIdle_nxt (s : State) : (s.engineIdle).nxt = { s.nxt with dbState := .idle } := rfl
@[simp] theorem State.engineIdle_q1 (s : State) : (s.engineIdle).q1 = s.q1 := rfl
@[simp] theorem State.engineIdle_r (s : State) : (s.engineIdle).r = s.r := rfl
@[simp] theorem State.engineIdle_rdata (s : State) : (s.engineIdle).rdata = s.rdata := rfl
@[simp] theorem State.engineIdle_stim (s : State) : (s.engineIdle).stim = s.stim := rfl
@[simp] theorem State.engineIdle_cycle (s : State) : (s.engineIdle).cycle = s.cycle := rfl

@[simp] theorem State.armTimer_params (s : State) : (s.armTimer).params = s.params := rfl
@[simp] theorem State.armTimer_now (s : State) : (s.armTimer).now = s.now := rfl
@[simp] theorem State.armTimer_nxt (s : State) : (s.armTimer).nxt = 
    { s.nxt with dbState := .holding, holdCnt := holdLen s.params s.now - 1, tiltChgValid := false } := rfl
@[simp] theorem State.armTimer_q1 (s : State) : (s.armTimer).q1 = s.q1 := rfl
@[simp] theorem State.armTimer_r (s : State) : (s.armTimer).r = s.r := rfl
@[simp] theorem State.armTimer_rdata (s : State) : (s.armTimer).rdata = s.rdata := rfl
@[simp] theorem State.armTimer_stim (s : State) : (s.armTimer).stim = s.stim := rfl
@[simp] theorem State.armTimer_cycle (s : State) : (s.armTimer).cycle = s.cycle := rfl

@[simp] theorem State.countDown_params (s : State) : (s.countDown).params = s.params := rfl
@[simp] theorem State.countDown_now (s : State) : (s.countDown).now = s.now := rfl
@[simp] theorem State.countDown_nxt (s : State) : (s.countDown).nxt = { s.nxt with holdCnt := s.now.holdCnt - 1, tiltChgValid := false } := rfl
@[simp] theorem State.countDown_q1 (s : State) : (s.countDown).q1 = s.q1 := rfl
@[simp] theorem State.countDown_r (s : State) : (s.countDown).r = s.r := rfl
@[simp] theorem State.countDown_rdata (s : State) : (s.countDown).rdata = s.rdata := rfl
@[simp] theorem State.countDown_stim (s : State) : (s.countDown).stim = s.stim := rfl
@[simp] theorem State.countDown_cycle (s : State) : (s.countDown).cycle = s.cycle := rfl

@[simp] theorem State.noDispatch_params (s : State) : (s.noDispatch).params = s.params := rfl
@[simp] theorem State.noDispatch_now (s : State) : (s.noDispatch).now = s.now := rfl
@[simp] theorem State.noDispatch_nxt (s : State) : (s.noDispatch).nxt = { s.nxt with tiltChgValid := false } := rfl
@[simp] theorem State.noDispatch_q1 (s : State) : (s.noDispatch).q1 = s.q1 := rfl
@[simp] theorem State.noDispatch_r (s : State) : (s.noDispatch).r = s.r := rfl
@[simp] theorem State.noDispatch_rdata (s : State) : (s.noDispatch).rdata = s.rdata := rfl
@[simp] theorem State.noDispatch_stim (s : State) : (s.noDispatch).stim = s.stim := rfl
@[simp] theorem State.noDispatch_cycle (s : State) : (s.noDispatch).cycle = s.cycle := rfl

@[simp] theorem State.dispatchLevel_params (l : Bool) (s : State) : (s.dispatchLevel l).params = s.params := rfl
@[simp] theorem State.dispatchLevel_now (l : Bool) (s : State) : (s.dispatchLevel l).now = s.now := rfl
@[simp] theorem State.dispatchLevel_nxt (l : Bool) (s : State) : (s.dispatchLevel l).nxt = 
    { s.nxt with
      confKnown := true, confLvl := l, tiltState := if tiltedOf s.now l then .tilted else .flat, tiltChgValid := true,
      tiltChgTilted := tiltedOf s.now l } := rfl
@[simp] theorem State.dispatchLevel_q1 (l : Bool) (s : State) : (s.dispatchLevel l).q1 = s.q1 := rfl
@[simp] theorem State.dispatchLevel_r (l : Bool) (s : State) : (s.dispatchLevel l).r = s.r := rfl
@[simp] theorem State.dispatchLevel_rdata (l : Bool) (s : State) : (s.dispatchLevel l).rdata = s.rdata := rfl
@[simp] theorem State.dispatchLevel_stim (l : Bool) (s : State) : (s.dispatchLevel l).stim = s.stim := rfl
@[simp] theorem State.dispatchLevel_cycle (l : Bool) (s : State) : (s.dispatchLevel l).cycle = s.cycle := rfl

@[simp] theorem State.placeWord_params (w : Word) (s : State) : (s.placeWord w).params = s.params := rfl
@[simp] theorem State.placeWord_now (w : Word) (s : State) : (s.placeWord w).now = s.now := rfl
@[simp] theorem State.placeWord_nxt (w : Word) (s : State) : (s.placeWord w).nxt = s.nxt := rfl
@[simp] theorem State.placeWord_q1 (w : Word) (s : State) : (s.placeWord w).q1 = s.q1 := rfl
@[simp] theorem State.placeWord_r (w : Word) (s : State) : (s.placeWord w).r = s.r := rfl
@[simp] theorem State.placeWord_rdata (w : Word) (s : State) : (s.placeWord w).rdata = s.rdata := rfl
@[simp] theorem State.placeWord_stim (w : Word) (s : State) : (s.placeWord w).stim = w :: s.stim.tail := rfl
@[simp] theorem State.placeWord_cycle (w : Word) (s : State) : (s.placeWord w).cycle = s.cycle := rfl

@[simp] theorem State.writeNext_params (f : Regs → Regs) (s : State) : (s.writeNext f).params = s.params := rfl
@[simp] theorem State.writeNext_now (f : Regs → Regs) (s : State) : (s.writeNext f).now = s.now := rfl
@[simp] theorem State.writeNext_nxt (f : Regs → Regs) (s : State) : (s.writeNext f).nxt = f s.nxt := rfl
@[simp] theorem State.writeNext_q1 (f : Regs → Regs) (s : State) : (s.writeNext f).q1 = s.q1 := rfl
@[simp] theorem State.writeNext_r (f : Regs → Regs) (s : State) : (s.writeNext f).r = s.r := rfl
@[simp] theorem State.writeNext_rdata (f : Regs → Regs) (s : State) : (s.writeNext f).rdata = s.rdata := rfl
@[simp] theorem State.writeNext_stim (f : Regs → Regs) (s : State) : (s.writeNext f).stim = s.stim := rfl
@[simp] theorem State.writeNext_cycle (f : Regs → Regs) (s : State) : (s.writeNext f).cycle = s.cycle := rfl

@[simp] theorem State.ignoreWrite_eq (d : RegWord) (s : State) : s.ignoreWrite d = s := rfl

/-- All that a guarded operation can do. -/
theorem State.runIf_cases (c : Bool) (f : State → State) (s : State) :
    (c = true ∧ s.runIf c f = .next (f s)) ∨ (c = false ∧ s.runIf c f = .next s) := by
  cases c <;> simp [State.runIf]

@[simp] theorem State.runIf_true (f : State → State) (s : State) : s.runIf true f = .next (f s) := rfl

@[simp] theorem State.runIf_false (f : State → State) (s : State) : s.runIf false f = .next s := rfl

/-- All that starting a transport write can do. -/
theorem State.startWrite_cases (s : State) :
    (s.now.q = [] ∧ s.startWrite = s) ∨
    ∃ h rest, s.now.q = h :: rest ∧ s.startWrite = s.writeNext fun n => { n with sndCur := h, sndState := .tx } := by
  unfold State.startWrite qHead
  cases hq : s.now.q with
  | nil => exact .inl ⟨rfl, rfl⟩
  | cons h rest => exact .inr ⟨h, rest, rfl, rfl⟩

/-- All that an enqueue can do. -/
theorem State.enqueueOnto_cases (v : List Report) (s : State) :
    (s.r = none ∧ s.enqueueOnto v = s) ∨
    ∃ r, s.r = some r ∧ s.enqueueOnto v = s.writeNext fun n => { n with q := qPush v r } := by
  unfold State.enqueueOnto
  cases hr : s.r with
  | none => exact .inl ⟨rfl, rfl⟩
  | some r => exact .inr ⟨r, rfl, rfl⟩

/-- The word of a cycle for which one is placed. -/
@[simp] theorem State.word_placed (s : State) (w : Word) : (s.placeWord w).word = w := rfl

theorem State.word_of_stim (s : State) (w : Word) (ws : List Word) (h : s.stim = w :: ws) : s.word = w := by
  simp [State.word, h]

@[simp] theorem runOps_nil (s : State) : runOps [] s = .next s := rfl

/-- Running one more operation. -/
theorem runOps_cons_next (i : Instr) (rest : List Instr) (s t : State) (h : exec i s = .next t) :
    runOps (i :: rest) s = runOps rest t := by
  simp [runOps, h]

end Sys2Proof.Machine
end

