-- ==== Sys2Proof/Laws/Operations.lean ====
section
/-! SUPPORT. Each operation once: what `exec` does with it, as a shared operation under its condition; and how a condition reads
a state that earlier operations of the same cycle have written. -/

namespace Sys2Proof.Machine

/-! ### The operations with a condition -/

theorem exec_dbQuiet (l : Bool) (s : State) : exec (.dbQuiet l) s = s.runIf (mayQuiet l s) State.noDispatch := rfl

theorem exec_dbEdgeArm (l : Bool) (s : State) : exec (.dbEdgeArm l) s = s.runIf (mayArm l s) State.armTimer := rfl

theorem exec_dbEdgeImm (l : Bool) (s : State) : exec (.dbEdgeImm l) s =
    s.runIf (mayDispatchNow l s) (State.dispatchLevel l) := rfl

theorem exec_dbEdgeMasked (l : Bool) (s : State) : exec (.dbEdgeMasked l) s = s.runIf (mayMask l s) id := rfl

theorem exec_dbCount (l : Bool) (s : State) : exec (.dbCount l) s = s.runIf (mayCount s) State.countDown := rfl

theorem exec_dbExpireConfirm (l : Bool) (s : State) : exec (.dbExpireConfirm l) s =
    s.runIf (mayConfirm l s) (State.engineIdle ∘ State.dispatchLevel l) := rfl

theorem exec_dbExpireDiscard (l : Bool) (s : State) : exec (.dbExpireDiscard l) s =
    s.runIf (mayDiscard l s) (State.engineIdle ∘ State.noDispatch) := rfl

theorem exec_enq (s : State) : exec .enq s = s.runIf (mayEnqueue s) (State.enqueueOnto s.q1) := rfl

theorem exec_enqPurge (s : State) : exec .enqPurge s = s.runIf (mayPurge s) (State.enqueueOnto (qPurge s.q1)) := rfl

theorem exec_deq (s : State) : exec .deq s = s.runIf (mayDequeue s) State.dequeue := rfl

theorem exec_sndEmpty (s : State) : exec .sndEmpty s = s.runIf (mayStayEmpty s) id := rfl

theorem exec_sndFetchDup (s : State) : exec .sndFetchDup s = s.runIf (mayDiscardDup s) State.dequeue := rfl

theorem exec_sndFetchNew (s : State) : exec .sndFetchNew s = s.runIf (mayFetchNew s) State.fetchNew := rfl

theorem exec_sndWait (s : State) : exec .sndWait s = s.runIf (senderBusy s) id := rfl

theorem exec_sndDoneOk (s : State) : exec .sndDoneOk s =
    s.runIf (senderBusy s) (State.senderIdle ∘ State.recordSent) := rfl

theorem exec_sndDoneFail (s : State) : exec .sndDoneFail s = s.runIf (senderBusy s) State.senderIdle := rfl

theorem exec_sndDoneIgnored (ok : Bool) (s : State) : exec (.sndDoneIgnored ok) s = s.runIf (senderFree s) id := rfl

/-! ### Running a list, operation by operation -/

/-- One more operation that has a condition. -/
theorem runOps_cons_runIf (i : Instr) (rest : List Instr) (c : Bool) (f : State → State) (s : State)
    (h : exec i s = s.runIf c f) : runOps (i :: rest) s = runOps rest (if c then f s else s) :=
  runOps_cons_next i rest s _ h

/-! ### Conditions read `S` -/

/-- A condition of the debounce engine, the queue's dequeue or the sender gives the same answer in two states with the same `S`
and the same parameters: what operations wrote to `S'` before it in the cycle does not matter. -/
theorem condition_congr (i : Instr) (s t : State) (hn : t.now = s.now) (hp : t.params = s.params) (hq : t.q1 = s.q1)
    (hr : t.r = s.r) : condition i t = condition i s := by
  cases i <;>
    simp only [condition, mayQuiet, mayArm, mayDispatchNow, mayMask, mayCount, mayConfirm, mayDiscard, mayEnqueue, mayPurge,
      mayDequeue, mayStayEmpty, mayDiscardDup, mayFetchNew, isIdle, isHolding, senderFree, senderBusy, hn, hp, hq, hr]

end Sys2Proof.Machine
end

