-- ==== Sys2Proof/Laws/Cycle.lean ====
section
/-! SUPPORT. What one operation can and cannot touch, and how a list of operations runs. -/

namespace Sys2Proof.Machine

/-- The fields that no operation touches: it reads `S` and leaves it, the parameters, the words to come and the counter
alone (40_cycle.md R111: "Steps 2 to 6 read only S and w"). -/
structure State.SameFrame (s t : State) : Prop where
  params : t.params = s.params
  now : t.now = s.now
  stim : t.stim = s.stim
  cycle : t.cycle = s.cycle

theorem State.SameFrame.refl (s : State) : s.SameFrame s := ⟨rfl, rfl, rfl, rfl⟩

theorem State.SameFrame.trans {s t u : State} (h : s.SameFrame t) (k : t.SameFrame u) : s.SameFrame u :=
  ⟨k.params.trans h.params, k.now.trans h.now, k.stim.trans h.stim, k.cycle.trans h.cycle⟩

theorem State.sameFrame_writeNext (f : Regs → Regs) (s : State) : s.SameFrame (s.writeNext f) := ⟨rfl, rfl, rfl, rfl⟩

theorem State.sameFrame_startWrite (s : State) : s.SameFrame s.startWrite := by
  obtain ⟨-, h⟩ | ⟨_, _, -, h⟩ := s.startWrite_cases
  · rw [h]; exact .refl s
  · rw [h]; exact s.sameFrame_writeNext _

theorem State.sameFrame_runIf (s : State) (c : Bool) (f : State → State) (h : s.SameFrame (f s)) :
    ∃ t, s.runIf c f = .next t ∧ s.SameFrame t := by
  obtain ⟨-, e⟩ | ⟨-, e⟩ := s.runIf_cases c f
  · exact ⟨_, e, h⟩
  · exact ⟨_, e, .refl s⟩

theorem State.sameFrame_enqueueOnto (v : List Report) (s : State) : s.SameFrame (s.enqueueOnto v) := by
  obtain ⟨-, h⟩ | ⟨_, -, h⟩ := s.enqueueOnto_cases v
  · rw [h]; exact .refl s
  · rw [h]; exact s.sameFrame_writeNext _

/-- Every operation answers a next state and leaves the frame alone. -/
theorem exec_sameFrame (i : Instr) (s : State) : ∃ t, exec i s = .next t ∧ s.SameFrame t := by
  cases i with
  | reset | cfgRead | cfgWrCtrl | cfgWrHold | cfgWrStatus | cfgWrParam | cfgWrLastLo | cfgWrLastHi | cfgWrRsvd6
  | cfgWrRsvd7 | dbSample | pack => exact ⟨_, rfl, ⟨rfl, rfl, rfl, rfl⟩⟩
  | dbQuiet l => exact s.sameFrame_runIf _ State.noDispatch ⟨rfl, rfl, rfl, rfl⟩
  | dbEdgeArm l => exact s.sameFrame_runIf _ State.armTimer ⟨rfl, rfl, rfl, rfl⟩
  | dbEdgeImm l => exact s.sameFrame_runIf _ (State.dispatchLevel l) ⟨rfl, rfl, rfl, rfl⟩
  | dbCount l => exact s.sameFrame_runIf _ State.countDown ⟨rfl, rfl, rfl, rfl⟩
  | dbExpireConfirm l => exact s.sameFrame_runIf _ (State.engineIdle ∘ State.dispatchLevel l) ⟨rfl, rfl, rfl, rfl⟩
  | dbExpireDiscard l => exact s.sameFrame_runIf _ (State.engineIdle ∘ State.noDispatch) ⟨rfl, rfl, rfl, rfl⟩
  | dbEdgeMasked | sndEmpty | sndWait | sndDoneIgnored => exact s.sameFrame_runIf _ id (.refl s)
  | deq | sndFetchDup => exact s.sameFrame_runIf _ State.dequeue ⟨rfl, rfl, rfl, rfl⟩
  | enq => exact s.sameFrame_runIf _ (State.enqueueOnto s.q1) (s.sameFrame_enqueueOnto _)
  | enqPurge => exact s.sameFrame_runIf _ (State.enqueueOnto (qPurge s.q1)) (s.sameFrame_enqueueOnto _)
  | sndFetchNew =>
    exact s.sameFrame_runIf _ State.fetchNew
      (.trans (t := s.dequeue) ⟨rfl, rfl, rfl, rfl⟩ s.dequeue.sameFrame_startWrite)
  | sndDoneOk => exact s.sameFrame_runIf _ (State.senderIdle ∘ State.recordSent) ⟨rfl, rfl, rfl, rfl⟩
  | sndDoneFail => exact s.sameFrame_runIf _ State.senderIdle ⟨rfl, rfl, rfl, rfl⟩

/-- A list of operations runs to a next state and leaves the frame alone. -/
theorem runOps_sameFrame (l : List Instr) (s : State) : ∃ t, runOps l s = .next t ∧ s.SameFrame t := by
  induction l generalizing s with
  | nil => exact ⟨s, rfl, .refl s⟩
  | cons i rest ih =>
    obtain ⟨t, ht, hf⟩ := exec_sameFrame i s
    obtain ⟨u, hu, hg⟩ := ih t
    exact ⟨u, by rw [runOps_cons_next i rest s t ht, hu], hf.trans hg⟩

/-- Operations run in two parts as they run in one. -/
theorem runOps_append (l m : List Instr) (s t : State) (h : runOps l s = .next t) : runOps (l ++ m) s = runOps m t := by
  induction l generalizing s with
  | nil => cases h; rfl
  | cons i rest ih =>
    obtain ⟨u, hu, -⟩ := exec_sameFrame i s
    rw [runOps_cons_next i rest s u hu] at h
    rw [List.cons_append, runOps_cons_next i _ s u hu]
    exact ih u h

/-- A state between cycles has the form of `State.Settled` after every cycle. -/
theorem State.endCycle_settled (s : State) : s.endCycle.Settled := ⟨rfl, rfl, rfl⟩

end Sys2Proof.Machine
end

