-- ==== Sys2Proof/Laws/Decode.lean ====
section
/-! SUPPORT. What a word selects, row by row and as a whole list (30_encoding.md R92), so that no later proof unfolds `decode`. -/

namespace Sys2Proof

/-- An operation is selected by a word if it is one of the 29 with the word's operands and the word meets its pattern. -/
theorem mem_decode (i : Instr) (w : Word) :
    i ∈ decode w ↔ i ∈ (Stim.ofWord w).operations ∧ i.pattern.accepts w = true := by
  simp [decode]

/-! ### The patterns of the operation map, as conditions on the word's fields -/

/-- A bit of the control bits 10:0. -/
theorem control_bit (w : Word) (k : Nat) (h : k < 11) : (w.extractLsb' 0 11).getLsbD k = w.getLsbD k := by
  simp [h]

/-- CFG_IDX within the control bits. -/
theorem control_index (w : Word) : (w.extractLsb' 0 11).extractLsb' 8 3 = w.extractLsb' 8 3 := by
  apply BitVec.eq_of_getLsbD_eq
  intro k hk
  simp [hk]

theorem accepts_any (w : Word) : Pattern.accepts ⟨0x000, 0x000⟩ w = true := by
  simp [Pattern.accepts]

theorem accepts_reset (w : Word) : Pattern.accepts ⟨0x001, 0x001⟩ w = w.getLsbD 0 := by
  rw [← control_bit w 0 (by decide), Pattern.accepts]
  generalize w.extractLsb' 0 11 = c
  revert c; decide +kernel

theorem accepts_noReset (w : Word) : Pattern.accepts ⟨0x001, 0x000⟩ w = !w.getLsbD 0 := by
  rw [← control_bit w 0 (by decide), Pattern.accepts]
  generalize w.extractLsb' 0 11 = c
  revert c; decide +kernel

theorem accepts_request (w : Word) : Pattern.accepts ⟨0x005, 0x004⟩ w = (!w.getLsbD 0 && w.getLsbD 2) := by
  rw [← control_bit w 0 (by decide), ← control_bit w 2 (by decide), Pattern.accepts]
  generalize w.extractLsb' 0 11 = c
  revert c; decide +kernel

theorem accepts_notDone (w : Word) : Pattern.accepts ⟨0x009, 0x000⟩ w = (!w.getLsbD 0 && !w.getLsbD 3) := by
  rw [← control_bit w 0 (by decide), ← control_bit w 3 (by decide), Pattern.accepts]
  generalize w.extractLsb' 0 11 = c
  revert c; decide +kernel

theorem accepts_done (w : Word) : Pattern.accepts ⟨0x009, 0x008⟩ w = (!w.getLsbD 0 && w.getLsbD 3) := by
  rw [← control_bit w 0 (by decide), ← control_bit w 3 (by decide), Pattern.accepts]
  generalize w.extractLsb' 0 11 = c
  revert c; decide +kernel

theorem accepts_doneOk (w : Word) :
    Pattern.accepts ⟨0x019, 0x018⟩ w = (!w.getLsbD 0 && w.getLsbD 3 && w.getLsbD 4) := by
  rw [← control_bit w 0 (by decide), ← control_bit w 3 (by decide), ← control_bit w 4 (by decide), Pattern.accepts]
  generalize w.extractLsb' 0 11 = c
  revert c; decide +kernel

theorem accepts_doneFail (w : Word) :
    Pattern.accepts ⟨0x019, 0x008⟩ w = (!w.getLsbD 0 && w.getLsbD 3 && !w.getLsbD 4) := by
  rw [← control_bit w 0 (by decide), ← control_bit w 3 (by decide), ← control_bit w 4 (by decide), Pattern.accepts]
  generalize w.extractLsb' 0 11 = c
  revert c; decide +kernel

/-- The eight rows of the register writes, `0x721` with the index in bits 10:8. -/
theorem accepts_write (w : Word) (i : BitVec 3) :
    Pattern.accepts ⟨0x721, i ++ 0x20#8⟩ w = (!w.getLsbD 0 && w.getLsbD 5 && w.extractLsb' 8 3 == i) := by
  rw [← control_bit w 0 (by decide), ← control_bit w 5 (by decide), ← control_index, Pattern.accepts]
  generalize w.extractLsb' 0 11 = c
  revert c i; decide +kernel

/-! ### The list that a word selects -/

/-- The register write of an index (30_encoding.md R92, group "reg write"). -/
def registerWrite (i : BitVec 3) (d : RegWord) : Instr :=
  match i.toNat with
  | 0 => .cfgWrCtrl d
  | 1 => .cfgWrHold d
  | 2 => .cfgWrStatus d
  | 3 => .cfgWrParam d
  | 4 => .cfgWrLastLo d
  | 5 => .cfgWrLastHi d
  | 6 => .cfgWrRsvd6 d
  | _ => .cfgWrRsvd7 d

theorem registerWrite_pattern (i : BitVec 3) (d : RegWord) : (registerWrite i d).pattern = ⟨0x721, i ++ 0x20#8⟩ := by
  have h : ∀ i : BitVec 3, (registerWrite i 0).pattern = ⟨0x721, i ++ 0x20#8⟩ := by decide +kernel
  have e : (registerWrite i d).pattern = (registerWrite i 0).pattern := by
    unfold registerWrite; split <;> rfl
  rw [e, h]

/-- The register writes that a word selects: none, or the one of its index. -/
theorem filter_registerWrites (w : Word) (d : RegWord) :
    ((List.finRange 8).map fun k => registerWrite (BitVec.ofFin k) d).filter (fun i => i.pattern.accepts w) =
      if !w.getLsbD 0 && w.getLsbD 5 then [registerWrite (w.extractLsb' 8 3) d] else [] := by
  rw [List.filter_map]
  have h : ∀ k : Fin 8, ((fun i : Instr => i.pattern.accepts w) ∘ fun k => registerWrite (BitVec.ofFin k) d) k =
      ((!w.getLsbD 0 && w.getLsbD 5) && w.extractLsb' 8 3 == BitVec.ofFin k) := by
    intro k
    simp only [Function.comp, registerWrite_pattern, accepts_write]
  rw [List.filter_congr (fun k _ => h k)]
  cases !w.getLsbD 0 && w.getLsbD 5
  · simp
  · generalize w.extractLsb' 8 3 = i
    have h : ∀ i : BitVec 3, (List.finRange 8).filter (fun k => true && i == BitVec.ofFin k) = [i.toFin] := by
      decide +kernel
    rw [h]; rfl

/-- In a reset word: RESET and CFG_READ. -/
theorem decode_of_reset (w : Word) (h : w.getLsbD 0 = true) : decode w = [.reset, .cfgRead (w.extractLsb' 8 3)] := by
  simp only [decode, Stim.operations, List.filter_cons, Instr.pattern, accepts_reset, accepts_any, accepts_noReset,
    accepts_request, accepts_notDone, accepts_done, accepts_doneOk, accepts_doneFail, h,
    show Pattern.accepts ⟨0x721, 0x020⟩ w = _ from accepts_write w 0,
    show Pattern.accepts ⟨0x721, 0x120⟩ w = _ from accepts_write w 1,
    show Pattern.accepts ⟨0x721, 0x220⟩ w = _ from accepts_write w 2,
    show Pattern.accepts ⟨0x721, 0x320⟩ w = _ from accepts_write w 3,
    show Pattern.accepts ⟨0x721, 0x420⟩ w = _ from accepts_write w 4,
    show Pattern.accepts ⟨0x721, 0x520⟩ w = _ from accepts_write w 5,
    show Pattern.accepts ⟨0x721, 0x620⟩ w = _ from accepts_write w 6,
    show Pattern.accepts ⟨0x721, 0x720⟩ w = _ from accepts_write w 7]
  simp [Stim.ofWord]

/-- The engine's operations, which every word without RST selects. -/
def engineOps (l : Bool) : List Instr :=
  [.dbSample l, .dbQuiet l, .dbEdgeArm l, .dbEdgeImm l, .dbEdgeMasked l, .dbCount l, .dbExpireConfirm l, .dbExpireDiscard l]

/-- The sender's operations (and DEQ), by TX_DONE and TX_OK. -/
def senderOps (done ok : Bool) : List Instr :=
  [.deq, .sndEmpty, .sndFetchDup, .sndFetchNew] ++
    if done then [if ok then .sndDoneOk else .sndDoneFail, .sndDoneIgnored ok] else [.sndWait]

theorem filter_eq_flatMap (p : Instr → Bool) (l : List Instr) : l.filter p = l.flatMap fun i => if p i then [i] else [] := by
  induction l with
  | nil => rfl
  | cons a l ih => rw [List.filter_cons, List.flatMap_cons, ih]; cases p a <;> rfl

/-- In a word without RST: the parts of 40_cycle.md R111, each a list of its own. -/
theorem decode_of_noReset (w : Word) (h : w.getLsbD 0 = false) :
    decode w =
      [.cfgRead (w.extractLsb' 8 3)] ++
      (if w.getLsbD 5 then [registerWrite (w.extractLsb' 8 3) (w.extractLsb' 64 32)] else []) ++
      engineOps (w.getLsbD 1) ++
      (if w.getLsbD 2 then [.pack (Stim.ofWord w).pad] else []) ++
      senderOps (w.getLsbD 3) (w.getLsbD 4) ++
      (if w.getLsbD 2 then [.enq, .enqPurge] else []) := by
  have parts : (Stim.ofWord w).operations =
      [.reset, .cfgRead (w.extractLsb' 8 3)] ++
      ((List.finRange 8).map fun k => registerWrite (BitVec.ofFin k) (w.extractLsb' 64 32)) ++
      (engineOps (w.getLsbD 1) ++
        [.pack (Stim.ofWord w).pad, .deq, .sndEmpty, .sndFetchDup, .sndFetchNew, .sndWait, .sndDoneOk, .sndDoneFail,
          .sndDoneIgnored (w.getLsbD 4), .enq, .enqPurge]) := rfl
  unfold decode
  rw [parts, List.filter_append, List.filter_append, filter_registerWrites, filter_eq_flatMap, filter_eq_flatMap]
  simp only [List.flatMap_cons, List.flatMap_nil, List.flatMap_append, engineOps, senderOps, Instr.pattern, accepts_reset,
    accepts_any, accepts_noReset, accepts_request, accepts_notDone, accepts_done, accepts_doneOk, accepts_doneFail, h]
  cases w.getLsbD 2 <;> cases w.getLsbD 3 <;> cases w.getLsbD 4 <;> cases w.getLsbD 5 <;> simp

end Sys2Proof
end

