-- ==== Sys2Proof/Laws/PerInstr.lean ====
section
/-! SUPPORT. A statement about every instruction, one lemma for each: an encoded operation meets its row's pattern. -/

namespace Sys2Proof.Laws

/-- The control bits 10:0 of a word, from its fields (30_encoding.md R90). -/
theorem toWord_control (f : Stim) :
    f.toWord.extractLsb' 0 11 =
      f.cfgIdx ++ 0#2 ++ bit f.cfgWe ++ bit f.txOk ++ bit f.txDone ++ bit f.inValid ++ bit f.tiltIn ++ bit f.rst := by
  apply BitVec.eq_of_getLsbD_eq
  intro k hk
  simp only [Stim.toWord, BitVec.getLsbD_extractLsb', BitVec.getLsbD_append]
  interval_cases k <;> simp

/-- A word that holds a row's match bits and operand fields meets the row's pattern, if it does so with the operands'
control bits alone. -/
theorem accepts_encode (i : Instr)
    (h : (i.pattern.value ||| i.operandFields.toWord.extractLsb' 0 11) &&& i.pattern.mask = i.pattern.value) :
    i.pattern.accepts (encode i) = true := by
  have e : (encode i).extractLsb' 0 11 = i.pattern.value ||| i.operandFields.toWord.extractLsb' 0 11 := by
    apply BitVec.eq_of_getLsbD_eq
    intro k hk
    simp [encode, hk, show k < 128 by omega]
  simp [Pattern.accepts, e, h]

/-- `Statement i`: the word that encodes `i` meets the pattern of `i`'s row (30_encoding.md R92). -/
def EncodesItsPattern.Statement (i : Instr) : Prop := i.pattern.accepts (encode i) = true

theorem EncodesItsPattern.reset : EncodesItsPattern.Statement .reset :=
  accepts_encode _ (by decide)

theorem EncodesItsPattern.cfgRead (idx : BitVec 3) : EncodesItsPattern.Statement (.cfgRead idx) :=
  accepts_encode _ (by revert idx; decide)

theorem EncodesItsPattern.cfgWrCtrl (wdata : RegWord) : EncodesItsPattern.Statement (.cfgWrCtrl wdata) :=
  accepts_encode _ (by rw [toWord_control]; simp [Instr.operandFields, Instr.pattern, Stim.zero, bit])

theorem EncodesItsPattern.cfgWrHold (wdata : RegWord) : EncodesItsPattern.Statement (.cfgWrHold wdata) :=
  accepts_encode _ (by rw [toWord_control]; simp [Instr.operandFields, Instr.pattern, Stim.zero, bit])

theorem EncodesItsPattern.cfgWrStatus (wdata : RegWord) : EncodesItsPattern.Statement (.cfgWrStatus wdata) :=
  accepts_encode _ (by rw [toWord_control]; simp [Instr.operandFields, Instr.pattern, Stim.zero, bit])

theorem EncodesItsPattern.cfgWrParam (wdata : RegWord) : EncodesItsPattern.Statement (.cfgWrParam wdata) :=
  accepts_encode _ (by rw [toWord_control]; simp [Instr.operandFields, Instr.pattern, Stim.zero, bit])

theorem EncodesItsPattern.cfgWrLastLo (wdata : RegWord) : EncodesItsPattern.Statement (.cfgWrLastLo wdata) :=
  accepts_encode _ (by rw [toWord_control]; simp [Instr.operandFields, Instr.pattern, Stim.zero, bit])

theorem EncodesItsPattern.cfgWrLastHi (wdata : RegWord) : EncodesItsPattern.Statement (.cfgWrLastHi wdata) :=
  accepts_encode _ (by rw [toWord_control]; simp [Instr.operandFields, Instr.pattern, Stim.zero, bit])

theorem EncodesItsPattern.cfgWrRsvd6 (wdata : RegWord) : EncodesItsPattern.Statement (.cfgWrRsvd6 wdata) :=
  accepts_encode _ (by rw [toWord_control]; simp [Instr.operandFields, Instr.pattern, Stim.zero, bit])

theorem EncodesItsPattern.cfgWrRsvd7 (wdata : RegWord) : EncodesItsPattern.Statement (.cfgWrRsvd7 wdata) :=
  accepts_encode _ (by rw [toWord_control]; simp [Instr.operandFields, Instr.pattern, Stim.zero, bit])

theorem EncodesItsPattern.dbSample (tiltIn : Bool) : EncodesItsPattern.Statement (.dbSample tiltIn) :=
  accepts_encode _ (by revert tiltIn; decide)

theorem EncodesItsPattern.dbQuiet (tiltIn : Bool) : EncodesItsPattern.Statement (.dbQuiet tiltIn) :=
  accepts_encode _ (by revert tiltIn; decide)

theorem EncodesItsPattern.dbEdgeArm (tiltIn : Bool) : EncodesItsPattern.Statement (.dbEdgeArm tiltIn) :=
  accepts_encode _ (by revert tiltIn; decide)

theorem EncodesItsPattern.dbEdgeImm (tiltIn : Bool) : EncodesItsPattern.Statement (.dbEdgeImm tiltIn) :=
  accepts_encode _ (by revert tiltIn; decide)

theorem EncodesItsPattern.dbEdgeMasked (tiltIn : Bool) : EncodesItsPattern.Statement (.dbEdgeMasked tiltIn) :=
  accepts_encode _ (by revert tiltIn; decide)

theorem EncodesItsPattern.dbCount (tiltIn : Bool) : EncodesItsPattern.Statement (.dbCount tiltIn) :=
  accepts_encode _ (by revert tiltIn; decide)

theorem EncodesItsPattern.dbExpireConfirm (tiltIn : Bool) : EncodesItsPattern.Statement (.dbExpireConfirm tiltIn) :=
  accepts_encode _ (by revert tiltIn; decide)

theorem EncodesItsPattern.dbExpireDiscard (tiltIn : Bool) : EncodesItsPattern.Statement (.dbExpireDiscard tiltIn) :=
  accepts_encode _ (by revert tiltIn; decide)

theorem EncodesItsPattern.pack (pad : Gamepad) : EncodesItsPattern.Statement (.pack pad) :=
  accepts_encode _ (by rw [toWord_control]; simp [Instr.operandFields, Instr.pattern, Stim.zero, bit])

theorem EncodesItsPattern.enq : EncodesItsPattern.Statement .enq :=
  accepts_encode _ (by decide)

theorem EncodesItsPattern.enqPurge : EncodesItsPattern.Statement .enqPurge :=
  accepts_encode _ (by decide)

theorem EncodesItsPattern.deq : EncodesItsPattern.Statement .deq :=
  accepts_encode _ (by decide)

theorem EncodesItsPattern.sndEmpty : EncodesItsPattern.Statement .sndEmpty :=
  accepts_encode _ (by decide)

theorem EncodesItsPattern.sndFetchDup : EncodesItsPattern.Statement .sndFetchDup :=
  accepts_encode _ (by decide)

theorem EncodesItsPattern.sndFetchNew : EncodesItsPattern.Statement .sndFetchNew :=
  accepts_encode _ (by decide)

theorem EncodesItsPattern.sndWait : EncodesItsPattern.Statement .sndWait :=
  accepts_encode _ (by decide)

theorem EncodesItsPattern.sndDoneOk : EncodesItsPattern.Statement .sndDoneOk :=
  accepts_encode _ (by decide)

theorem EncodesItsPattern.sndDoneFail : EncodesItsPattern.Statement .sndDoneFail :=
  accepts_encode _ (by decide)

theorem EncodesItsPattern.sndDoneIgnored (txOk : Bool) : EncodesItsPattern.Statement (.sndDoneIgnored txOk) :=
  accepts_encode _ (by revert txOk; decide)

end Sys2Proof.Laws
end

