-- ==== Sys2Proof/Laws/Queue.lean ====
section
/-! SUPPORT. The queue primitives on the sequence value (43_queue.md R180): how long a queue is after each, and what stands
in it. -/

namespace Sys2Proof.Machine

@[simp] theorem qPush_eq (q : List Report) (r : Report) : qPush q r = q ++ [r] := rfl

@[simp] theorem qPurge_eq (q : List Report) : qPurge q = [] := rfl

@[simp] theorem qPop_nil : qPop [] = [] := rfl

@[simp] theorem qPop_cons (h : Report) (rest : List Report) : qPop (h :: rest) = rest := rfl

@[simp] theorem qHead_nil : qHead [] = none := rfl

@[simp] theorem qHead_cons (h : Report) (rest : List Report) : qHead (h :: rest) = some h := rfl

theorem length_qPop_le (q : List Report) : (qPop q).length ≤ q.length := by
  cases q <;> simp

theorem mem_of_mem_qPop {q : List Report} {y : Report} (h : y ∈ qPop q) : y ∈ q := List.mem_of_mem_tail h

@[simp] theorem RingBuffer.length_toSeq (cap : Nat) (g : RingBuffer) : (g.toSeq cap).length = g.count := by
  simp [RingBuffer.toSeq]

end Sys2Proof.Machine
end

