-- ==== Sys2Proof/Tests/Slice0.lean ====
section
/-! SUPPORT. Tests: words written out from 30_encoding.md R90 and R92, single cycles of 95_test_vectors.md, the checks on
ill-formed data, and a witness for the hypotheses of each statement that has some. -/

namespace Sys2Proof.Tests

open Sys2Proof Sys2Proof.Machine

-- One test after the other: a hundred kernel evaluations at once need a hundred thread stacks.
set_option Elab.async false

/-- A settled state with the default parameters; fields not named have their reset values, except `primed = 1`
(95_test_vectors.md section 2). -/
def start (f : Regs → Regs) (words : List Word := []) : State :=
  State.settle { State.reset with now := f { Regs.reset Config.params with primed := true }, stim := words }

/-- The state a step or an operation leaves. -/
def result : Host.Outcome State Fault Refusal → Option State
  | .next t => some t
  | .fault _ => none
  | .refused _ => none

/-- `S'` of one cycle on the word `w`, from the state of `start f`. -/
def cycleOn (w : Word) (f : Regs → Regs) : Option Regs := (result (step (start f [w]))).map (·.now)

/-- The reports of 95_test_vectors.md section 2.4. -/
def reportX : Report := 0x03140A7DFF#40
def reportY : Report := 0x0302017FFE#40

/-! ### Ill-formed data is refused (WellFormed, the decoder's and the trace's checks) -/

theorem test_params_capacity_zero_refused : ¬ Params.WF { Config.params with cap := 0 } := by decide
theorem test_params_clock_zero_refused : ¬ Params.WF { Config.params with clkPerMs := 0 } := by decide
theorem test_params_default_accepted : Params.WF Config.params := by decide
theorem test_reserved_bit_refused_by_checker : reservedClear 0x00000000000000000000000000000040#128 = false := by decide
theorem test_reserved_bit_127_refused_by_checker : reservedClear 0x80000000000000000000000000000000#128 = false := by
  decide
theorem test_value_wider_than_bits_refused : readWord 8 256 = .error .notOneWord := by decide
theorem test_longer_than_a_word_refused : decodeTableWord 136 0 = none := by decide +kernel
theorem test_trace_wide_axis_refused : checkItems [.push 0 256 0 0] = .error .valueTooWide := by decide
theorem test_trace_wide_index_refused : checkItems [.rd 8] = .error .valueTooWide := by decide
theorem test_trace_item_twice_refused : checkItems [.tilt true, .tilt false] = .error .itemTwice := by decide
theorem test_trace_two_indices_refused : checkItems [.wr 0 1, .rd 1] = .error .indicesDiffer := by decide
theorem test_trace_hold_zero_refused : (TraceLine.hold true 0).expand = .error .holdForNoCycle := by decide
theorem test_trace_unknown_word_refused : readLine "jump 3".toList = .error .notALine := by decide +kernel

/-! ### Decoding: one written-out word for every constructor (R90, R92) -/

theorem test_decode_reset : .reset ∈ decode 0x00000000000000000000000000000001#128 := by decide +kernel
theorem test_decode_cfgRead : .cfgRead 5 ∈ decode 0x00000000000000000000000000000500#128 := by decide +kernel
theorem test_decode_cfgWrCtrl : .cfgWrCtrl 0xfffff30e ∈ decode 0x00000000fffff30e0000000000000020#128 := by decide +kernel
theorem test_decode_cfgWrHold : .cfgWrHold 0x0001001e ∈ decode 0x000000000001001e0000000000000120#128 := by decide +kernel
theorem test_decode_cfgWrStatus : .cfgWrStatus 0x12345678 ∈ decode 0x00000000123456780000000000000220#128 := by
  decide +kernel
theorem test_decode_cfgWrParam : .cfgWrParam 0 ∈ decode 0x00000000000000000000000000000320#128 := by decide +kernel
theorem test_decode_cfgWrLastLo : .cfgWrLastLo 0xffffffff ∈ decode 0x00000000ffffffff0000000000000420#128 := by
  decide +kernel
theorem test_decode_cfgWrLastHi : .cfgWrLastHi 0x80000001 ∈ decode 0x00000000800000010000000000000520#128 := by
  decide +kernel
theorem test_decode_cfgWrRsvd6 : .cfgWrRsvd6 6 ∈ decode 0x00000000000000060000000000000620#128 := by decide +kernel
theorem test_decode_cfgWrRsvd7 : .cfgWrRsvd7 7 ∈ decode 0x00000000000000070000000000000720#128 := by decide +kernel
theorem test_decode_dbSample : .dbSample true ∈ decode 0x00000000000000000000000000000002#128 := by decide +kernel
theorem test_decode_dbQuiet : .dbQuiet false ∈ decode 0x00000000000000000000000000000000#128 := by decide +kernel
theorem test_decode_dbEdgeArm : .dbEdgeArm true ∈ decode 0x00000000000000000000000000000002#128 := by decide +kernel
theorem test_decode_dbEdgeImm : .dbEdgeImm true ∈ decode 0x00000000000000000000000000000002#128 := by decide +kernel
theorem test_decode_dbEdgeMasked : .dbEdgeMasked false ∈ decode 0x00000000000000000000000000000018#128 := by
  decide +kernel
theorem test_decode_dbCount : .dbCount true ∈ decode 0x00000000000000000000000000000002#128 := by decide +kernel
theorem test_decode_dbExpireConfirm : .dbExpireConfirm true ∈ decode 0x00000000000000000000000000000002#128 := by
  decide +kernel
theorem test_decode_dbExpireDiscard : .dbExpireDiscard false ∈ decode 0x00000000000000000000000000000000#128 := by
  decide +kernel
theorem test_decode_pack :
    .pack { btn := 0x0200, ax := 10, ay := 20, aux := 3 } ∈ decode 0x00000000000000000003140a02000004#128 := by
  decide +kernel
theorem test_decode_enq : .enq ∈ decode 0x00000000000000000003140a02000004#128 := by decide +kernel
theorem test_decode_enqPurge : .enqPurge ∈ decode 0x00000000000000000000000000000004#128 := by decide +kernel
theorem test_decode_deq : .deq ∈ decode 0x00000000000000000000000000000000#128 := by decide +kernel
theorem test_decode_sndEmpty : .sndEmpty ∈ decode 0x00000000000000000000000000000000#128 := by decide +kernel
theorem test_decode_sndFetchDup : .sndFetchDup ∈ decode 0x00000000000000000000000000000018#128 := by decide +kernel
theorem test_decode_sndFetchNew : .sndFetchNew ∈ decode 0x00000000000000000000000000000000#128 := by decide +kernel
theorem test_decode_sndWait : .sndWait ∈ decode 0x00000000000000000000000000000010#128 := by decide +kernel
theorem test_decode_sndDoneOk : .sndDoneOk ∈ decode 0x00000000000000000000000000000018#128 := by decide +kernel
theorem test_decode_sndDoneFail : .sndDoneFail ∈ decode 0x00000000000000000000000000000008#128 := by decide +kernel
theorem test_decode_sndDoneIgnored : .sndDoneIgnored true ∈ decode 0x00000000000000000000000000000018#128 := by
  decide +kernel

/-- R92: a reset word with every other bit set selects RESET and CFG_READ only. -/
theorem test_decode_reset_word_alone :
    decode 0xffffffffffffffffffffffffffffffff#128 = [.reset, .cfgRead 7] := by decide +kernel
theorem test_table_word_of_done_ok : decodeTableWord 128 0x18 = some .sndDoneOk := by decide +kernel
theorem test_table_word_of_hold_write : decodeTableWord 128 0x120 = some (.cfgWrHold 0) := by decide +kernel
theorem test_table_word_of_reset : decodeTableWord 128 0x1 = some .reset := by decide +kernel

/-! ### Reset and the register port -/

/-- 95_test_vectors.md R-1. -/
def busy : Regs → Regs := fun r =>
  { r with
    dbState := .holding, holdCnt := 2, sndState := .tx, sndCur := reportX, q := [reportY, reportY], tiltState := .tilted,
    confKnown := true, confLvl := true, lastSent := reportY, holdMs := 9, ctrl := ctrlWrite 0x00000300 }

/-- R-1: a reset word with IN_VALID, TX_DONE, TX_OK, CFG_WE and TILT_IN set as well, reading index 2. -/
theorem test_reset_from_a_busy_state :
    cycleOn 0xffffffffffffffffffffffffffff023f#128 busy = some (Regs.reset Config.params) := by decide +kernel
theorem test_reset_cycle_reads_the_state_before :
    (result (step (start busy [0x23f#128]))).map (·.rdata) = some 0x0000023b := by decide +kernel

/-- The parameters of 95_test_vectors.md section 2.5. -/
def portParams : Params := { cap := 5, clkPerMs := 1000, pHoldMs := 20, pTiltBit := 15, pTiltLvlInv := false }

/-- Section 2.5: reads after reset of the indices 0 to 7. -/
theorem test_reads_after_reset :
    ([0, 1, 2, 3, 4, 5, 6, 7] : List (BitVec 3)).map (regRead portParams (Regs.reset portParams)) =
      [0x00000f01, 0x00000014, 0, 0x0003e805, 0, 0, 0, 0] := by decide
/-- Section 2.5: STATUS, LAST_LO and LAST_HI of a busy state. -/
theorem test_status_and_last :
    let S := { busy (Regs.reset Config.params) with
      q := [reportY, reportY, reportY], tiltChgValid := true, tiltChgTilted := true, lastSent := reportX }
    ([2, 4, 5] : List (BitVec 3)).map (regRead Config.params S) = [0x000003fb, 0x140a7dff, 0x00000003] := by decide
/-- Section 2.5, cycle 1: the write of CTRL drops its reserved bits. -/
theorem test_ctrl_write :
    (cycleOn 0x00000000fffff30e0000000000000020#128 id).map (fun S => ctrlImage S.ctrl) = some 0x0000030e := by
  decide +kernel
/-- Section 2.5, cycle 3. -/
theorem test_hold_write : (cycleOn 0x000000000001001e0000000000000120#128 id).map (·.holdMs) = some 30 := by decide +kernel
/-- R223 and section 2.5, cycles 5 and 7: writes to read-only and reserved indices. -/
theorem test_status_write_ignored : cycleOn 0x00000000ffffffff0000000000000220#128 id = cycleOn 0#128 id := by
  decide +kernel
theorem test_param_write_ignored : cycleOn 0x00000000ffffffff0000000000000320#128 id = cycleOn 0#128 id := by decide +kernel
theorem test_last_lo_write_ignored : cycleOn 0x00000000ffffffff0000000000000420#128 id = cycleOn 0#128 id := by
  decide +kernel
theorem test_last_hi_write_ignored : cycleOn 0x00000000ffffffff0000000000000520#128 id = cycleOn 0#128 id := by
  decide +kernel
theorem test_reserved6_write_ignored : cycleOn 0x00000000ffffffff0000000000000620#128 id = cycleOn 0#128 id := by
  decide +kernel
theorem test_reserved7_write_ignored : cycleOn 0x00000000ffffffff0000000000000720#128 id = cycleOn 0#128 id := by
  decide +kernel

/-! ### The debounce engine (95_test_vectors.md section 2.1) -/

/-- V1. -/
theorem test_v1_first_cycle_has_no_edge :
    cycleOn 2#128 (fun r => { r with primed := false }) =
      some { Regs.reset Config.params with lvlPrev := true, primed := true } := by decide +kernel
/-- V2. -/
theorem test_v2_edge_arms :
    (cycleOn 2#128 id).map (fun S => (S.dbState, S.holdCnt, S.lvlPrev)) = some (.holding, 2, true) := by decide +kernel
/-- V4. -/
theorem test_v4_largest_hold :
    (cycleOn 2#128 (fun r => { r with holdMs := 65535 })).map (·.holdCnt) = some 65534 := by decide +kernel
/-- V5. -/
theorem test_v5_dispatch_at_once :
    (cycleOn 2#128 (fun r => { r with holdMs := 0 })).map
        (fun S => (S.dbState, S.confKnown, S.confLvl, S.tiltState, S.tiltChgValid, S.tiltChgTilted)) =
      some (.idle, true, true, .tilted, true, true) := by decide +kernel
/-- V6: TILT_LVL_INV = 1. -/
theorem test_v6_level_mapping_inverted :
    (cycleOn 0#128 (fun r =>
      { r with holdMs := 0, lvlPrev := true, confKnown := true, confLvl := true, tiltState := .flat,
               ctrl := { r.ctrl with tiltLvlInv := true } })).map
        (fun S => (S.confLvl, S.tiltState, S.tiltChgTilted)) = some (false, .tilted, true) := by decide +kernel
/-- V7. -/
theorem test_v7_count :
    (cycleOn 2#128 (fun r => { r with dbState := .holding, holdCnt := 2, lvlPrev := true })).map (·.holdCnt) = some 1 := by
  decide +kernel
/-- V8. -/
theorem test_v8_masked_edge :
    (cycleOn 0#128 (fun r => { r with dbState := .holding, holdCnt := 1, lvlPrev := true })).map
        (fun S => (S.dbState, S.holdCnt, S.lvlPrev, S.tiltChgValid)) = some (.holding, 0, false, false) := by decide +kernel
/-- V10. -/
theorem test_v10_bounce_discarded :
    (cycleOn 0#128 (fun r => { r with dbState := .holding, confKnown := true, tiltState := .flat })).map
        (fun S => (S.dbState, S.tiltState, S.tiltChgValid)) = some (.idle, .flat, false) := by decide +kernel
/-- V11. -/
theorem test_v11_first_confirmation :
    (cycleOn 0#128 (fun r => { r with dbState := .holding })).map
        (fun S => (S.dbState, S.confKnown, S.confLvl, S.tiltState)) = some (.idle, true, false, .flat) := by decide +kernel
/-- V12. -/
theorem test_v12_edge_in_the_expiry_cycle_discarded :
    (cycleOn 2#128 (fun r =>
      { r with dbState := .holding, confKnown := true, confLvl := true, tiltState := .tilted })).map
        (fun S => (S.dbState, S.lvlPrev, S.tiltChgValid)) = some (.idle, true, false) := by decide +kernel
/-- V13. -/
theorem test_v13_edge_in_the_expiry_cycle_confirmed :
    (cycleOn 0#128 (fun r =>
      { r with dbState := .holding, lvlPrev := true, confKnown := true, confLvl := true, tiltState := .tilted })).map
        (fun S => (S.dbState, S.confLvl, S.tiltState, S.tiltChgValid)) = some (.idle, false, .flat, true) := by
  decide +kernel
/-- V14. -/
theorem test_v14_pulse_ends :
    (cycleOn 2#128 (fun r => { r with lvlPrev := true, tiltChgValid := true, tiltChgTilted := true })).map
        (fun S => (S.tiltChgValid, S.tiltChgTilted)) = some (false, true) := by decide +kernel
/-- V15: a word that writes HOLD = 0 in the arming cycle. -/
theorem test_v15_hold_read_at_arming :
    (cycleOn 0x122#128 (fun r => { r with holdMs := 5 })).map (fun S => (S.holdCnt, S.holdMs)) = some (4, 0) := by
  decide +kernel

/-! ### The packer (95_test_vectors.md sections 1 T2 and 2.2) -/

/-- `Pack` of `BTN = 0x0200`, axes 10, 20, 3 under TILT_BIT 15. -/
def packed (ts : TiltState) (inv pol unk : Bool) : Report :=
  packReport
    { Regs.reset Config.params with
      tiltState := ts, ctrl := { invEn := inv, tiltBitPol := pol, unkAsTilted := unk, tiltLvlInv := false, tiltBit := 15 } }
    false { btn := 0x0200, ax := 10, ay := 20, aux := 3 }

/-- K1 to K8 and K9, K11, K13, K14. -/
theorem test_pack_vectors :
    [packed .flat true false false, packed .flat false false false, packed .flat true true false,
      packed .flat false true false, packed .tilted true false false, packed .tilted false false false,
      packed .tilted true true false, packed .tilted false true false, packed .unknown true false false,
      packed .unknown true true false, packed .unknown true false true, packed .unknown true true true] =
    [0x03140a7dff, 0x03140a8200, 0x03140afdff, 0x03140a0200, 0x03140afdff, 0x03140a0200, 0x03140a7dff, 0x03140a8200,
      0x03140a7dff, 0x03140afdff, 0x03140afdff, 0x03140a7dff] := by decide
/-- Section 1, T2. -/
theorem test_serialise_layout : serialise 0x1234 0x56 0x78 0x9a = 0x9a78561234#40 := by decide

/-! ### The queue and the sender (95_test_vectors.md sections 2.3 and 2.4) -/

/-- `r` of section 2.3 is `0x0000007FFF`. Q2. -/
theorem test_q2_enqueue :
    (cycleOn 4#128 (fun r => { r with sndState := .tx, q := [1, 2] })).map (·.q) = some [1, 2, 0x7fff] := by decide +kernel
/-- Q3. -/
theorem test_q3_purge :
    (cycleOn 4#128 (fun r => { r with sndState := .tx, q := [1, 2, 3, 4, 5] })).map (·.q) = some [0x7fff] := by
  decide +kernel
/-- Q4: dequeue first, no purge. -/
theorem test_q4_dequeue_then_enqueue :
    (cycleOn 4#128 (fun r => { r with q := [1, 2, 3, 4, 5] })).map (fun S => (S.q, S.sndCur)) =
      some ([2, 3, 4, 5, 0x7fff], 1) := by decide +kernel
/-- Q5: CAP = 1. -/
theorem test_q5_purge_at_capacity_one :
    (result (step { start (fun r => { r with sndState := .tx, q := [1] }) [4#128] with
      params := { Config.params with cap := 1 } })).map (·.now.q) = some [0x7fff] := by decide +kernel
/-- Q7. -/
theorem test_q7_not_fetched_in_its_own_cycle :
    (cycleOn 4#128 id).map (fun S => (S.q, S.sndState)) = some ([0x7fff], .idle) := by decide +kernel
/-- Q8. -/
theorem test_q8_dequeue : (cycleOn 0#128 (fun r => { r with q := [1, 2, 3] })).map (·.q) = some [2, 3] := by decide +kernel
/-- S1. -/
theorem test_s1_fetch_new :
    (cycleOn 0#128 (fun r => { r with q := [reportX] })).map (fun S => (S.q, S.sndState, S.sndCur)) =
      some ([], .tx, reportX) := by decide +kernel
/-- S2. -/
theorem test_s2_fetch_duplicate :
    (cycleOn 0#128 (fun r => { r with q := [reportX, reportY], lastSent := reportX })).map
        (fun S => (S.q, S.sndState, S.sndCur)) = some ([reportY], .idle, 0) := by decide +kernel
/-- S3. -/
theorem test_s3_empty :
    cycleOn 0#128 (fun r => { r with lastSent := reportX }) =
      some { Regs.reset Config.params with primed := true, lastSent := reportX } := by decide +kernel
/-- S5. -/
theorem test_s5_done_ok :
    (cycleOn 0x18#128 (fun r => { r with sndState := .tx, q := [reportY], sndCur := reportX })).map
        (fun S => (S.q, S.sndState, S.lastSent)) = some ([reportY], .idle, reportX) := by decide +kernel
/-- S6. -/
theorem test_s6_done_fail :
    (cycleOn 0x8#128 (fun r => { r with sndState := .tx, sndCur := reportY, lastSent := reportX })).map
        (fun S => (S.sndState, S.lastSent)) = some (.idle, reportX) := by decide +kernel
/-- S8. -/
theorem test_s8_done_ignored_beside_a_fetch :
    (cycleOn 0x18#128 (fun r => { r with q := [reportY], lastSent := reportX })).map
        (fun S => (S.q, S.sndState, S.sndCur, S.lastSent)) = some ([], .tx, reportY, reportX) := by decide +kernel
/-- S9. -/
theorem test_s9_zero_report_before_any_success :
    (cycleOn 0#128 (fun r => { r with q := [0] })).map (fun S => (S.q, S.sndState)) = some ([], .idle) := by decide +kernel
/-- S11. -/
theorem test_s11_wait_with_ok_alone :
    (cycleOn 0x10#128 (fun r => { r with sndState := .tx, sndCur := reportX })).map
        (fun S => (S.sndState, S.sndCur, S.lastSent)) = some (.tx, reportX, 0) := by decide +kernel

/-! ### The trace syntax (30_encoding.md R97, R98; 95_test_vectors.md sections 1 T3, 2.5 and 3 P1) -/

theorem test_trace_push :
    assembleText ["reset".toList, "send 0x0200,10,20,3".toList, "ack".toList] =
      .ok [1#128, 0x00000000000000000003140a02000004#128, 0x18#128] := by decide +kernel
theorem test_trace_sticky_level :
    assembleText ["hold 1 2".toList, "cyc wr 1,0x0001001E rd 1".toList, "level 0".toList] =
      .ok [2#128, 2#128, 0x000000000001001e0000000000000122#128, 0#128] := by decide +kernel

/-! ### Witnesses: for every statement with hypotheses, data that meet them all -/

theorem test_witness_ReservedBitsChangeNothing :
    0xc0#128 &&& ~~~reservedBits = 0#128 &&& ~~~reservedBits ∧ 0xc0#128 ≠ 0#128 := by decide

theorem test_witness_StepRunsEachSelectedOperation :
    decode (start id [1#128]).word = [] ++ .reset :: [.cfgRead 0] := by decide +kernel

theorem test_witness_InvariantKeptByEveryStep :
    (start (fun r => { r with
      dbState := .holding, holdCnt := 2, confKnown := true, confLvl := true, tiltState := .tilted, tiltChgTilted := true,
      sndState := .tx, sndCur := reportX, q := [reportX] })).Inv ∧
    ∃ t, step (start id [0#128]) = .next t :=
  ⟨⟨by decide, by constructor <;> decide⟩, _, rfl⟩

theorem test_witness_InvariantHoldsAfterReset :
    Params.WF portParams ∧ Params.WF { Config.params with cap := 1 } ∧ Params.WF { Config.params with cap := 255 } := by
  decide +kernel

theorem test_witness_ResetWritesEveryField : (start busy [0x3f#128]).word.getLsbD 0 = true := by decide

theorem test_witness_ResetForgetsThePast :
    let s := start id [1#128, 0#128]
    let s' := start busy [1#128, 0#128]
    s.params = s'.params ∧ s.stim = 1#128 :: [0#128] ∧ s'.stim = 1#128 :: [0#128] ∧ (1#128).getLsbD 0 = true ∧
      1 ≤ [0#128].length ∧ s.now ≠ s'.now := by decide

theorem test_witness_OperationsNotEnabledChangeNothing :
    condition (.dbCount true) (start id) = false ∧ condition .sndWait (start id) = false := by decide

theorem test_witness_OneOperationOfEachGroup : (0#128).getLsbD 0 = false ∧ (1#128).getLsbD 0 = true := by decide

theorem test_witness_LastRegistersHoldTheReportBytes : 0 < 5 ∧ 3 < 5 ∧ 4 < 5 := by decide

/-- A write of CTRL, one of HOLD and one to a reserved index. -/
theorem test_witness_RegisterWritesActFromTheNextCycle :
    let writes := fun w : Word => (start id [w]).word.getLsbD 0 = false ∧ (start id [w]).word.getLsbD 5 = true
    writes 0x20#128 ∧ writes 0x120#128 ∧ writes 0x720#128 := by decide

theorem test_witness_QuietOnlyEndsThePulse :
    let s := start fun r => { r with primed := false }
    let t := start fun r => { r with lvlPrev := true }
    (s.now.dbState = .idle ∧ s.now.primed = false) ∧ t.now.dbState = .idle ∧ t.now.primed = true ∧ true = t.now.lvlPrev := by
  decide

/-- At `N = 1`. -/
theorem test_witness_EdgeArmsTheTimer :
    let s := start fun r => { r with holdMs := 1 }
    s.now.dbState = .idle ∧ s.now.primed = true ∧ true ≠ s.now.lvlPrev ∧
      1 ≤ s.now.holdMs.toNat * s.params.clkPerMs.toNat := by decide

theorem test_witness_EdgeWithoutHoldDispatches :
    let s := start fun r => { r with holdMs := 0 }
    s.now.dbState = .idle ∧ s.now.primed = true ∧ true ≠ s.now.lvlPrev ∧
      s.now.holdMs.toNat * s.params.clkPerMs.toNat = 0 := by decide

theorem test_witness_EdgeWhileHoldingIsMasked :
    ∀ n ∈ [0, 1], let s := start fun r => { r with dbState := .holding, holdCnt := n, lvlPrev := true }
      s.now.dbState = .holding ∧ s.now.primed = true ∧ false ≠ s.now.lvlPrev := by decide

theorem test_witness_HoldTimerCountsDown :
    let s := start fun r => { r with dbState := .holding, holdCnt := 1 }
    s.now.dbState = .holding ∧ s.now.holdCnt ≠ 0 := by decide

theorem test_witness_ExpiryConfirmsAChange :
    let s := start fun r => { r with dbState := .holding }
    let t := start fun r => { r with dbState := .holding, confKnown := true }
    (s.now.dbState = .holding ∧ s.now.holdCnt = 0 ∧ s.now.confKnown = false) ∧
      t.now.dbState = .holding ∧ t.now.holdCnt = 0 ∧ t.now.confKnown = true ∧ t.now.confLvl ≠ true := by decide

theorem test_witness_ExpiryDiscardsABounce :
    let s := start fun r => { r with dbState := .holding, confKnown := true }
    s.now.dbState = .holding ∧ s.now.holdCnt = 0 ∧ s.now.confKnown = true ∧ s.now.confLvl = false := by decide

/-- At `N = 1` and at `N = 3`; nothing confirmed yet, a different level confirmed, the same level confirmed. -/
theorem test_witness_HoldWindowEndsInOneDecision :
    ∀ p ∈ [(1, false, false), (3, true, false), (3, true, true)],
      let n : Nat := p.1
      let s := start (fun r => { r with holdMs := BitVec.ofNat 16 n, confKnown := p.2.1, confLvl := p.2.2 })
        (List.replicate 4 2#128)
      n = s.now.holdMs.toNat * s.params.clkPerMs.toNat ∧ 1 ≤ n ∧ s.now.dbState = .idle ∧ s.now.primed = true ∧
        n < s.stim.length ∧ (∀ k ∈ List.range (n + 1), (s.stim.getD k 0).getLsbD 0 = false) ∧
        (s.stim.getD 0 0).getLsbD 1 ≠ s.now.lvlPrev := by decide +kernel

/-- With an edge and without one. -/
theorem test_witness_ZeroHoldDispatchesEveryEdge :
    ∀ l ∈ [false, true], let s := start (fun r => { r with holdMs := 0, lvlPrev := l }) [2#128]
      s.word.getLsbD 0 = false ∧ s.now.dbState = .idle ∧ s.now.holdMs = 0 ∧ s.now.primed = true := by decide

theorem test_witness_TiltChangesOnlyWithADispatch :
    (start id [0#128]).word.getLsbD 0 = false ∧ (cycleOn 0#128 id).map (·.tiltChgValid) = some false := by decide +kernel

theorem test_witness_PackHandsOverTheReport :
    (start fun r => { r with tiltState := .tilted }).now.tiltState = .tilted ∧
      (start fun r => { r with tiltState := .flat }).now.tiltState = .flat ∧ (start id).now.tiltState = .unknown := by decide

theorem test_witness_ComposeReplacesOnlyTheTiltBit :
    0 < 16 ∧ 15 < 16 ∧ 15 = State.reset.now.ctrl.tiltBit.toNat ∧ 0 ≠ State.reset.now.ctrl.tiltBit.toNat := by decide

theorem test_witness_EmittedBitsFollowThePolarities :
    (start fun r => { r with tiltState := .tilted }).now.tiltState = .tilted ∧
      (start fun r => { r with tiltState := .flat }).now.tiltState = .flat ∧
      14 < 16 ∧ 14 ≠ State.reset.now.ctrl.tiltBit.toNat := by decide

theorem test_witness_GoldenVectorPacks :
    let S := (start fun r => { r with tiltState := .flat }).now
    9 < 16 ∧ 9 ≠ S.ctrl.tiltBit.toNat ∧ S.tiltState = .flat ∧ S.ctrl.invEn = true ∧ S.ctrl.tiltBitPol = false := by decide

/-- With the last free place and with an empty queue. -/
theorem test_witness_EnqueueAppendsTheReport :
    ∀ q ∈ [[], [1, 2, 3, (4 : Report)]], let s := { start (fun r => { r with q := q }) with r := some reportX }
      s.r = some reportX ∧ s.q1.length < s.params.cap.toNat := by decide

theorem test_witness_EnqueueIntoAFullQueuePurges :
    let s := { start (fun r => { r with q := [1, 2, 3, 4, 5] }) with r := some reportX }
    s.r = some reportX ∧ s.q1.length = s.params.cap.toNat := by decide

theorem test_witness_DequeueTakesTheOldest :
    let s := start fun r => { r with q := [1, 2] }
    s.now.sndState = .idle ∧ s.now.q = 1 :: [2] := by decide

theorem test_witness_EveryRequestEntersAsTheNewest :
    let s := start (fun r => { r with q := [1, 2, 3, 4, 5] }) [4#128]
    s.word.getLsbD 0 = false ∧ s.word.getLsbD 2 = true ∧ 1 ≤ s.params.cap.toNat ∧ s.now.q.length ≤ s.params.cap.toNat := by
  decide

theorem test_witness_DequeueComesBeforeEnqueue :
    let s := start (fun r => { r with q := [1, 2, 3, 4, 5] }) [4#128]
    s.word.getLsbD 0 = false ∧ s.word.getLsbD 2 = true ∧ s.now.sndState = .idle ∧ s.now.q = 1 :: [2, 3, 4, 5] ∧
      s.now.q.length ≤ s.params.cap.toNat ∧ (1 : Report) ≠ s.now.lastSent := by decide

/-- A ring that wraps, with one place free; and one that is empty, one that is full. -/
theorem test_witness_RingStorageRefinesTheSequence :
    1 ≤ 3 ∧ (RingBuffer.mk [1, 2, 3] 2 2).WF 3 ∧ 0 < (RingBuffer.mk [1, 2, 3] 2 2).count ∧ (RingBuffer.mk [1, 2, 3] 2 2).count < 3 ∧
      (RingBuffer.mk [1, 2, 3] 2 0).WF 3 ∧ (RingBuffer.mk [1, 2, 3] 2 3).WF 3 := by decide

theorem test_witness_WaitingSenderChangesNothing :
    ((start id).now.sndState = .idle ∧ (start id).now.q = []) ∧ (start fun r => { r with sndState := .tx }).now.sndState = .tx := by
  decide

theorem test_witness_FetchedDuplicateIsDiscarded :
    let s := start fun r => { r with q := [reportX, reportY], lastSent := reportX }
    s.now.sndState = .idle ∧ s.now.q = s.now.lastSent :: [reportY] := by decide

theorem test_witness_FetchedNewReportStartsAWrite :
    let s := start fun r => { r with q := [reportX] }
    s.now.sndState = .idle ∧ s.now.q = reportX :: [] ∧ reportX ≠ s.now.lastSent := by decide

theorem test_witness_SuccessfulWriteIsRecorded : (start fun r => { r with sndState := .tx }).now.sndState = .tx := by decide

theorem test_witness_FailedWriteIsNotRecorded : (start fun r => { r with sndState := .tx }).now.sndState = .tx := by decide

theorem test_witness_ConsecutiveSuccessfulWritesDiffer :
    let s := start (fun r => { r with sndState := .tx, sndCur := reportX }) [0x18#128]
    s.Inv ∧ s.now.sndState = .tx ∧ s.word.getLsbD 0 = false ∧ s.word.getLsbD 3 = true ∧ s.word.getLsbD 4 = true :=
  ⟨⟨by decide, by constructor <;> decide⟩, by decide, by decide, by decide, by decide⟩

/-- A cycle that packs the duplicate once more. -/
theorem test_witness_DuplicatesStartNoWrite :
    let s := start (fun r => { r with q := [reportX], lastSent := reportX }) [0x00000000000000000003140a02000004#128]
    s.now.OnlyDuplicatesOf reportX ∧ 1 ≤ s.stim.length ∧
      ∀ k, k < 1 → ∀ u : State, runSteps k s = .next u →
        u.word.getLsbD 0 = false ∧
        (u.word.getLsbD 2 = true →
          packReport u.now (Config.tiltBitOfCode11 u.cycle) (Stim.ofWord u.word).pad = reportX) := by
  refine ⟨⟨by decide, by decide, fun y hy => List.mem_singleton.1 hy⟩, by decide, fun k hk u hu => ?_⟩
  obtain rfl : k = 0 := by omega
  cases hu
  exact ⟨by decide, fun _ => by decide +kernel⟩

theorem test_witness_SenderWaitsForTheTransport :
    let s := start (fun r => { r with sndState := .tx, sndCur := reportX, q := [1, 2, 3, 4, 5] }) [4#128, 0#128]
    s.now.sndState = .tx ∧ 2 ≤ s.stim.length ∧
      (∀ k, k < 2 → (s.stim.getD k 0).getLsbD 0 = false ∧ (s.stim.getD k 0).getLsbD 3 = false) ∧
      1 ≤ s.params.cap.toNat ∧ s.now.q.length ≤ s.params.cap.toNat := by decide

theorem test_witness_FailedReportIsTriedAgain :
    let s := start (fun r => { r with sndState := .tx, sndCur := reportX, q := [reportX] }) [0x8#128, 0#128]
    s.stim = 0x8#128 :: 0#128 :: [] ∧ s.now.sndState = .tx ∧ s.now.q = s.now.sndCur :: [] ∧
      s.now.sndCur ≠ s.now.lastSent ∧ (0x8#128).getLsbD 0 = false ∧ (0x8#128).getLsbD 2 = false ∧
      (0x8#128).getLsbD 3 = true ∧ (0x8#128).getLsbD 4 = false ∧ (0#128).getLsbD 0 = false := by decide

theorem test_witness_QuiescentStateStays :
    let s := start (fun r => { r with lvlPrev := true }) [2#128]
    s.now.Quiescent ∧ s.word &&& ~~~2#128 = 0#128 ∧ s.word.getLsbD 1 = s.now.lvlPrev := by decide

theorem test_witness_UnprimedQuiescentStateKeepsItsLevel :
    let s := start (fun r => { r with primed := false }) [2#128]
    s.now.Quiescent ∧ s.word &&& ~~~2#128 = 0#128 ∧ s.now.primed = false := by decide

/-- An empty line, and one with a sticky level, a request and a write with its read. -/
theorem test_witness_TraceLineWordIsTheStatedEncoding :
    checkItems [] = .ok () ∧ checkItems [.tilt true, .push 0xffff 255 0 3, .wr 7 5, .rd 7] = .ok () := by decide

theorem test_witness_PseudoOperationsExpand : (1 ≤ 1) ∧ (1 ≤ 4) := by decide

end Sys2Proof.Tests
end

/-! One cycle as a whole: what the operations of each part do together, and that a step is the reference cycle of
40_cycle.md R113. -/

namespace Sys2Proof.Machine

/-! ### Running a list of which few operations act -/

/-- Every operation is guarded by its condition in the operation map (30_encoding.md R92). -/
theorem exec_eq_runIf_condition (i : Instr) (s : State) : ∃ f, exec i s = s.runIf (condition i s) f := by
  cases i with
  | reset | cfgRead | cfgWrCtrl | cfgWrHold | cfgWrStatus | cfgWrParam | cfgWrLastLo | cfgWrLastHi | cfgWrRsvd6
  | cfgWrRsvd7 | dbSample | pack => exact ⟨fun _ => _, rfl⟩
  | _ => exact ⟨_, rfl⟩

theorem exec_of_condition_false {i : Instr} {s : State} (h : condition i s = false) : exec i s = .next s := by
  obtain ⟨f, hf⟩ := exec_eq_runIf_condition i s
  rw [hf, h, State.runIf_false]

@[simp] theorem State.runIf_id (c : Bool) (s : State) : s.runIf c id = .next s := by
  cases c <;> rfl

theorem runOps_of_noEffect {l : List Instr} {s : State} (h : ∀ i ∈ l, exec i s = .next s) : runOps l s = .next s := by
  induction l with
  | nil => rfl
  | cons i rest ih =>
    rw [runOps_cons_next i rest s s (h i List.mem_cons_self)]
    exact ih fun j hj => h j (List.mem_cons_of_mem i hj)

/-- One operation of a list acts: the ones before it leave its state alone, the ones after it leave the next one alone. -/
theorem runOps_of_oneEffect {before after : List Instr} {i : Instr} {s t : State}
    (hbefore : ∀ j ∈ before, exec j s = .next s) (hi : exec i s = .next t)
    (hafter : ∀ j ∈ after, exec j t = .next t) :
    runOps (before ++ i :: after) s = .next t := by
  rw [runOps_append before _ s s (runOps_of_noEffect hbefore), runOps_cons_next i after s t hi]
  exact runOps_of_noEffect hafter

/-! ### The debounce engine in one cycle -/

/-- All that the engine can do in a cycle without RST (41_debounce.md R130 to R139): from `S`, the level `l` and the fields
`n` written so far, the fields it leaves. -/
inductive EngineOutcome (p : Params) (S : Regs) (l : Bool) (n : Regs) : Regs → Prop where
  | quiet (hidle : S.dbState = .idle) (hedge : edge S l = false) :
    EngineOutcome p S l n { n with lvlPrev := l, primed := true, tiltChgValid := false }
  | arm (hidle : S.dbState = .idle) (hedge : edge S l = true) (hlen : 1 ≤ holdLen p S) :
    EngineOutcome p S l n
      { n with lvlPrev := l, primed := true, dbState := .holding, holdCnt := holdLen p S - 1, tiltChgValid := false }
  | dispatchNow (hidle : S.dbState = .idle) (hedge : edge S l = true) (hlen : holdLen p S = 0) :
    EngineOutcome p S l n (refDispatch S l { n with lvlPrev := l, primed := true })
  | count (hholding : S.dbState = .holding) (hcnt : S.holdCnt ≠ 0) :
    EngineOutcome p S l n { n with lvlPrev := l, primed := true, holdCnt := S.holdCnt - 1, tiltChgValid := false }
  | confirm (hholding : S.dbState = .holding) (hcnt : S.holdCnt = 0) (hdiff : differs S l = true) :
    EngineOutcome p S l n { refDispatch S l { n with lvlPrev := l, primed := true } with dbState := .idle }
  | discard (hholding : S.dbState = .holding) (hcnt : S.holdCnt = 0) (hdiff : differs S l = false) :
    EngineOutcome p S l n { n with lvlPrev := l, primed := true, tiltChgValid := false, dbState := .idle }

theorem differs_eq_true_iff (S : Regs) (l : Bool) : differs S l = true ↔ S.confKnown = false ∨ S.confLvl ≠ l := by
  simp [differs]

theorem refDebounce_outcome (p : Params) (S : Regs) (w : Stim) (n : Regs) :
    EngineOutcome p S w.tiltIn n (refDebounce p S w n) := by
  have hlen : S.holdMs.toNat * p.clkPerMs.toNat = holdLen p S := rfl
  have hedge : (S.primed && (w.tiltIn != S.lvlPrev)) = edge S w.tiltIn := rfl
  unfold refDebounce
  simp only [hlen, hedge, ← differs_eq_true_iff]
  cases hdb : S.dbState with
  | idle =>
    dsimp only
    split_ifs with harm hnow
    · exact .arm hdb harm.1 harm.2
    · exact .dispatchNow hdb hnow.1 hnow.2
    · refine .quiet hdb (Bool.eq_false_iff.mpr fun he => ?_)
      have hzero : holdLen p S = 0 := by simpa [he] using harm
      exact hnow ⟨he, hzero⟩
  | holding =>
    dsimp only
    split_ifs with hcnt hdiff
    · exact .count hdb hcnt
    · exact .confirm hdb (not_not.mp hcnt) hdiff
    · exact .discard hdb (not_not.mp hcnt) (Bool.eq_false_iff.mpr hdiff)

/-- The engine's operations write the outcome: DB_SAMPLE acts, and after it exactly one operation of the engine's group. -/
theorem runOps_engineOps_of_outcome {l : Bool} {s : State} {n : Regs} (h : EngineOutcome s.params s.now l s.nxt n) :
    runOps (engineOps l) s = .next { s with nxt := n } := by
  rw [engineOps, runOps_cons_next (.dbSample l) _ s (s.writeNext fun n => { n with lvlPrev := l, primed := true }) rfl]
  cases h with
  | quiet hidle hedge =>
    refine runOps_of_oneEffect (before := []) ?_ ?_ ?_
    · simp
    · have hrun : mayQuiet l s = true := by simp [mayQuiet, isIdle, hidle, hedge]
      exact congrArg (State.runIf · State.noDispatch _) hrun
    · simp [exec_of_condition_false, exec_dbEdgeMasked, condition, mayArm, mayDispatchNow, mayCount, mayConfirm,
        mayDiscard, isIdle, isHolding, hidle, hedge]
  | arm hidle hedge hlen =>
    refine runOps_of_oneEffect (before := [.dbQuiet l]) ?_ ?_ ?_
    · simp [exec_of_condition_false, condition, mayQuiet, isIdle, hidle, hedge]
    · have hrun : mayArm l s = true := by simp [mayArm, isIdle, hidle, hedge, hlen]
      exact congrArg (State.runIf · State.armTimer _) hrun
    · simp [exec_of_condition_false, exec_dbEdgeMasked, condition, mayDispatchNow, mayCount, mayConfirm, mayDiscard,
        isIdle, isHolding, hidle, hedge, Nat.one_le_iff_ne_zero.mp hlen]
  | dispatchNow hidle hedge hlen =>
    refine runOps_of_oneEffect (before := [.dbQuiet l, .dbEdgeArm l]) ?_ ?_ ?_
    · simp [exec_of_condition_false, condition, mayQuiet, mayArm, isIdle, hidle, hedge, hlen]
    · have hrun : mayDispatchNow l s = true := by simp [mayDispatchNow, isIdle, hidle, hedge, hlen]
      exact congrArg (State.runIf · (State.dispatchLevel l) _) hrun
    · simp [exec_of_condition_false, exec_dbEdgeMasked, condition, mayCount, mayConfirm, mayDiscard, isHolding, hidle]
  | count hholding hcnt =>
    refine runOps_of_oneEffect (before := [.dbQuiet l, .dbEdgeArm l, .dbEdgeImm l, .dbEdgeMasked l]) ?_ ?_ ?_
    · simp [exec_of_condition_false, exec_dbEdgeMasked, condition, mayQuiet, mayArm, mayDispatchNow, isIdle, hholding]
    · have hrun : mayCount s = true := by simp [mayCount, isHolding, hholding, hcnt]
      exact congrArg (State.runIf · State.countDown _) hrun
    · simp [exec_of_condition_false, condition, mayConfirm, mayDiscard, isHolding, hholding, hcnt]
  | confirm hholding hcnt hdiff =>
    refine runOps_of_oneEffect (before := [.dbQuiet l, .dbEdgeArm l, .dbEdgeImm l, .dbEdgeMasked l, .dbCount l]) ?_ ?_ ?_
    · simp [exec_of_condition_false, exec_dbEdgeMasked, condition, mayQuiet, mayArm, mayDispatchNow, mayCount, isIdle,
        hholding, hcnt]
    · have hrun : mayConfirm l s = true := by simp [mayConfirm, isHolding, hholding, hcnt, hdiff]
      exact congrArg (State.runIf · (State.engineIdle ∘ State.dispatchLevel l) _) hrun
    · simp [exec_of_condition_false, condition, mayDiscard, hdiff]
  | discard hholding hcnt hdiff =>
    refine runOps_of_oneEffect
      (before := [.dbQuiet l, .dbEdgeArm l, .dbEdgeImm l, .dbEdgeMasked l, .dbCount l, .dbExpireConfirm l]) ?_ ?_ ?_
    · simp [exec_of_condition_false, exec_dbEdgeMasked, condition, mayQuiet, mayArm, mayDispatchNow, mayCount, mayConfirm,
        isIdle, hholding, hcnt, hdiff]
    · have hrun : mayDiscard l s = true := by simp [mayDiscard, isHolding, hholding, hcnt, hdiff]
      exact congrArg (State.runIf · (State.engineIdle ∘ State.noDispatch) _) hrun
    · simp

/-! ### The sender and the dequeue in one cycle -/

/-- All that the sender can do in a cycle without RST (44_sender.md R200 to R206): from `S`, TX_DONE, TX_OK and the fields
`n` written so far, the fields it leaves and the queue `q1` after the cycle's dequeue. -/
inductive SenderOutcome (S : Regs) (done ok : Bool) (n : Regs) : Regs → List Report → Prop where
  | empty (hfree : S.sndState = .idle) (hq : S.q = []) : SenderOutcome S done ok n n []
  | duplicate (rest : List Report) (hfree : S.sndState = .idle) (hq : S.q = S.lastSent :: rest) :
    SenderOutcome S done ok n n rest
  | fetch (h : Report) (rest : List Report) (hfree : S.sndState = .idle) (hq : S.q = h :: rest) (hnew : h ≠ S.lastSent) :
    SenderOutcome S done ok n { n with sndCur := h, sndState := .tx } rest
  | wait (hbusy : S.sndState = .tx) (hdone : done = false) : SenderOutcome S done ok n n S.q
  | doneOk (hbusy : S.sndState = .tx) (hdone : done = true) (hok : ok = true) :
    SenderOutcome S done ok n { n with lastSent := S.sndCur, sndState := .idle } S.q
  | doneFail (hbusy : S.sndState = .tx) (hdone : done = true) (hok : ok = false) :
    SenderOutcome S done ok n { n with sndState := .idle } S.q

theorem refSender_outcome (S : Regs) (w : Stim) (n : Regs) :
    SenderOutcome S w.txDone w.txOk n (refSender S w n) (refDequeue S) := by
  unfold refSender refDequeue
  cases hs : S.sndState with
  | idle =>
    cases hq : S.q with
    | nil => exact .empty hs hq
    | cons h rest =>
      dsimp only
      split_ifs with hnew
      · exact .fetch h rest hs hq hnew
      · exact .duplicate rest hs (by rw [hq, not_not.mp hnew])
  | tx =>
    dsimp only
    split_ifs with hok hdone
    · exact .doneOk hs hok.1 hok.2
    · exact .doneFail hs hdone (by simpa [hdone] using hok)
    · exact .wait hs (by simpa using hdone)

theorem State.dequeue_dequeue (s : State) : s.dequeue.dequeue = s.dequeue := rfl

theorem State.dequeue_of_cons {s : State} {h : Report} {rest : List Report} (hq : s.now.q = h :: rest) :
    s.dequeue = { s with q1 := rest, nxt := { s.nxt with q := rest } } := by
  simp [State.dequeue, hq]

theorem exec_deq_of_cons {s : State} {h : Report} {rest : List Report} (hfree : s.now.sndState = .idle)
    (hq : s.now.q = h :: rest) : exec .deq s = .next s.dequeue := by
  have hrun : mayDequeue s = true := by simp [mayDequeue, senderFree, hfree, hq]
  exact congrArg (State.runIf · State.dequeue s) hrun

/-- The dequeue within SND_FETCH_DUP, after the one of DEQ: it reads `S`, so nothing more is taken off the queue. -/
theorem exec_sndFetchDup_dequeue (s : State) : exec .sndFetchDup s.dequeue = .next s.dequeue := by
  rw [exec_sndFetchDup]
  obtain ⟨-, e⟩ | ⟨-, e⟩ := s.dequeue.runIf_cases (mayDiscardDup s.dequeue) State.dequeue
  · rw [e, State.dequeue_dequeue]
  · rw [e]

/-- While the sender is IDLE, TX_DONE and TX_OK have no effect (44_sender.md R205). -/
theorem runOps_senderOps_of_free {s : State} (hfree : s.now.sndState = .idle) (done ok : Bool) :
    runOps (senderOps done ok) s = runOps [.deq, .sndEmpty, .sndFetchDup, .sndFetchNew] s := by
  obtain ⟨t, ht, hframe⟩ := runOps_sameFrame [.deq, .sndEmpty, .sndFetchDup, .sndFetchNew] s
  rw [senderOps, runOps_append _ _ s t ht, ht]
  apply runOps_of_noEffect
  cases done <;> cases ok <;>
    simp [exec_of_condition_false, exec_sndDoneIgnored, condition, senderBusy, hframe.now, hfree]

/-- While a write is in flight, nothing is taken off the queue (44_sender.md R202). -/
theorem runOps_senderOps_of_busy {s : State} (hbusy : s.now.sndState = .tx) (done ok : Bool) :
    runOps (senderOps done ok) s =
      runOps (if done then [if ok then .sndDoneOk else .sndDoneFail, .sndDoneIgnored ok] else [.sndWait]) s := by
  rw [senderOps, runOps_append _ _ s s (runOps_of_noEffect _)]
  simp [exec_of_condition_false, condition, mayDequeue, mayStayEmpty, mayDiscardDup, mayFetchNew, senderFree, hbusy]

/-- The sender's operations (DEQ among them) write the outcome. -/
theorem runOps_senderOps_of_outcome {done ok : Bool} {s : State} {n : Regs} {q : List Report} (hq1 : s.q1 = s.now.q)
    (hnxt : s.nxt.q = s.now.q) (h : SenderOutcome s.now done ok s.nxt n q) :
    runOps (senderOps done ok) s = .next { s with q1 := q, nxt := { n with q := q } } := by
  have hkeep : s = { s with q1 := s.now.q, nxt := { s.nxt with q := s.now.q } } := by
    rw [show ({ s.nxt with q := s.now.q } : Regs) = s.nxt by rw [← hnxt], ← hq1]
  cases h with
  | empty hfree hq =>
    rw [runOps_senderOps_of_free hfree, runOps_of_noEffect, ← hq, ← hkeep]
    simp [exec_of_condition_false, exec_sndEmpty, condition, mayDequeue, mayDiscardDup, mayFetchNew, hq]
  | duplicate _ hfree hq =>
    rw [runOps_senderOps_of_free hfree, ← State.dequeue_of_cons hq]
    refine runOps_of_oneEffect (before := []) (by simp) (exec_deq_of_cons hfree hq) ?_
    simp [exec_of_condition_false, exec_sndEmpty, exec_sndFetchDup_dequeue, condition, mayFetchNew, hq]
  | fetch h rest hfree hq hnew =>
    rw [runOps_senderOps_of_free hfree, runOps_cons_next .deq _ s _ (exec_deq_of_cons hfree hq),
      State.dequeue_of_cons hq]
    refine runOps_of_oneEffect (before := [.sndEmpty, .sndFetchDup]) ?_ ?_ ?_
    · simp [exec_of_condition_false, exec_sndEmpty, condition, mayDiscardDup, hq, hnew]
    · have hrun : mayFetchNew s = true := by simp [mayFetchNew, mayDequeue, senderFree, hfree, hq, hnew]
      refine (congrArg (State.runIf · State.fetchNew _) hrun).trans ?_
      simp [State.fetchNew, State.startWrite, State.dequeue, State.writeNext, hq]
    · simp
  | wait hbusy hdone =>
    subst hdone
    rw [runOps_senderOps_of_busy hbusy, ← hkeep]
    exact runOps_of_noEffect (by simp [exec_sndWait])
  | doneOk hbusy hdone hok =>
    subst hdone hok
    rw [runOps_senderOps_of_busy hbusy]
    refine runOps_of_oneEffect (before := []) (by simp) ?_ (by simp [exec_sndDoneIgnored])
    have hrun : senderBusy s = true := by simp [senderBusy, hbusy]
    refine (congrArg (State.runIf · (State.senderIdle ∘ State.recordSent) s) hrun).trans ?_
    exact congrArg (Host.Outcome.next ∘ State.senderIdle ∘ State.recordSent) hkeep
  | doneFail hbusy hdone hok =>
    subst hdone hok
    rw [runOps_senderOps_of_busy hbusy]
    refine runOps_of_oneEffect (before := []) (by simp) ?_ (by simp [exec_sndDoneIgnored])
    have hrun : senderBusy s = true := by simp [senderBusy, hbusy]
    refine (congrArg (State.runIf · State.senderIdle s) hrun).trans ?_
    exact congrArg (Host.Outcome.next ∘ State.senderIdle) hkeep

/-! ### The register port, the packer and the enqueue in one cycle -/

theorem runOps_registerWrite (w : Stim) (s : State) :
    runOps (if w.cfgWe then [registerWrite w.cfgIdx w.cfgWdata] else []) s =
      .next { s with nxt := refRegisterPort w s.nxt } := by
  unfold refRegisterPort
  cases w.cfgWe with
  | false => rfl
  | true =>
    generalize w.cfgIdx = i
    fin_cases i <;> rfl

theorem runOps_pack (b : Bool) (g : Gamepad) (s : State) (hr : s.r = none) :
    runOps (if b then [.pack g] else []) s =
      .next { s with r := if b then some (packReport s.now (Config.tiltBitOfCode11 s.cycle) g) else none } := by
  cases b with
  | false => rw [← hr]; rfl
  | true => rfl

/-- The enqueue's operations: one of them acts if a report was packed, by the room in `q1` (43_queue.md R181, R182). -/
theorem runOps_enqueue (w : Stim) (report : Report) (s : State) (hr : w.inValid = true → s.r = some report)
    (hq : s.nxt.q = s.q1) :
    runOps (if w.inValid then [.enq, .enqPurge] else []) s =
      .next { s with nxt := { s.nxt with q := refEnqueue s.params w report s.q1 } } := by
  unfold refEnqueue
  cases hv : w.inValid with
  | false =>
    have hsame : ({ s.nxt with q := s.q1 } : Regs) = s.nxt := by rw [← hq]
    rw [if_neg Bool.false_ne_true, if_neg Bool.false_ne_true, hsame]; rfl
  | true =>
    have hpacked := hr hv
    by_cases hroom : s.q1.length < s.params.cap.toNat
    · refine (runOps_of_oneEffect (before := []) (t := s.enqueueOnto s.q1) ?_ ?_ ?_).trans ?_
      · simp
      · have hrun : mayEnqueue s = true := by simp [mayEnqueue, capacity, hpacked, hroom]
        exact congrArg (State.runIf · (State.enqueueOnto s.q1) s) hrun
      · simp [exec_of_condition_false, condition, mayPurge, capacity, State.enqueueOnto, hpacked, hroom]
      · simp [State.enqueueOnto, State.writeNext, hpacked, hroom]
    · refine (runOps_of_oneEffect (before := [.enq]) (t := s.enqueueOnto []) ?_ ?_ ?_).trans ?_
      · simp [exec_of_condition_false, condition, mayEnqueue, capacity, hroom]
      · have hrun : mayPurge s = true := by simp [mayPurge, capacity, hpacked, hroom]
        exact congrArg (State.runIf · (State.enqueueOnto []) s) hrun
      · simp
      · simp [State.enqueueOnto, State.writeNext, hpacked, hroom]

theorem refRegisterPort_eq (w : Stim) (n : Regs) : ∃ c m, refRegisterPort w n = { n with ctrl := c, holdMs := m } := by
  unfold refRegisterPort
  split_ifs
  · exact ⟨_, n.holdMs, rfl⟩
  · exact ⟨n.ctrl, _, rfl⟩
  · exact ⟨_, _, rfl⟩
  · exact ⟨_, _, rfl⟩

/-- The engine leaves the queue and the sender's fields alone (40_cycle.md R112). -/
theorem EngineOutcome.frame {p : Params} {S n n' : Regs} {l : Bool} (h : EngineOutcome p S l n n') :
    n'.q = n.q ∧ n'.sndState = n.sndState ∧ n'.sndCur = n.sndCur ∧ n'.lastSent = n.lastSent := by
  cases h <;> exact ⟨rfl, rfl, rfl, rfl⟩

theorem refDebounce_q (p : Params) (S : Regs) (w : Stim) (n : Regs) : (refDebounce p S w n).q = n.q := by
  obtain ⟨hq, -⟩ := (refDebounce_outcome p S w n).frame
  exact hq

theorem refRegisterPort_q (w : Stim) (n : Regs) : (refRegisterPort w n).q = n.q := by
  obtain ⟨c, m, h⟩ := refRegisterPort_eq w n
  rw [h]

/-- Parts 2 and 3 of 40_cycle.md R111: the register port and the debounce engine. -/
theorem runOps_portAndEngine (w : Stim) (s : State) :
    runOps ([.cfgRead w.cfgIdx] ++ (if w.cfgWe then [registerWrite w.cfgIdx w.cfgWdata] else []) ++ engineOps w.tiltIn)
        s.settle =
      .next { s.settle with
        rdata := regRead s.params s.now w.cfgIdx
        nxt := refDebounce s.params s.now w (refRegisterPort w s.now) } := by
  have hport := runOps_registerWrite w (s.settle.driveRead w.cfgIdx)
  rw [List.append_assoc, runOps_append [.cfgRead w.cfgIdx] _ _ _ rfl, runOps_append _ _ _ _ hport]
  exact runOps_engineOps_of_outcome (refDebounce_outcome s.params s.now w (refRegisterPort w s.now))

/-- Parts 4 to 6 of 40_cycle.md R111: the packer, the sender with the dequeue, and the enqueue. -/
theorem runOps_packSendEnqueue (w : Stim) (s : State) (hr : s.r = none) (hq1 : s.q1 = s.now.q) (hq : s.nxt.q = s.now.q) :
    ∃ t, runOps ((if w.inValid then [.pack w.pad] else []) ++ (senderOps w.txDone w.txOk ++
        (if w.inValid then [.enq, .enqPurge] else []))) s = .next t ∧
      t.params = s.params ∧ t.rdata = s.rdata ∧
      t.nxt = { refSender s.now w s.nxt with
        q := refEnqueue s.params w (packReport s.now (Config.tiltBitOfCode11 s.cycle) w.pad) (refDequeue s.now) } := by
  have hpack := runOps_pack w.inValid w.pad s hr
  have hsend := runOps_senderOps_of_outcome
    (s := { s with r := if w.inValid then some (packReport s.now (Config.tiltBitOfCode11 s.cycle) w.pad) else none })
    hq1 hq (refSender_outcome s.now w s.nxt)
  rw [runOps_append _ _ _ _ hpack, runOps_append _ _ _ _ hsend]
  exact ⟨_, runOps_enqueue w _ _ (fun hv => if_pos hv) rfl, rfl, rfl, rfl⟩

/-! ### The whole cycle -/

theorem runCycle_of_runOps {w : Word} {s x : State} (h : runOps (decode w) s.settle = .next x) :
    runCycle w s = .next x.endCycle := by
  simp [runCycle, h]

/-- In a cycle without RST the operations write, part by part, what the parts of 40_cycle.md R113 write. -/
theorem runOps_decode_of_noReset {s : State} (hrst : s.word.getLsbD 0 = false) :
    ∃ t, runOps (decode s.word) s.settle = .next t ∧ t.params = s.params ∧
      t.rdata = regRead s.params s.now (s.word.extractLsb' 8 3) ∧
      t.nxt = refStep s.params (Config.tiltBitOfCode11 s.cycle) s.now (Stim.ofWord s.word) := by
  generalize hw : Stim.ofWord s.word = w
  have hreset : w.rst = false := by rw [← hw]; exact hrst
  have hdecode : decode s.word =
      [.cfgRead w.cfgIdx] ++ (if w.cfgWe then [registerWrite w.cfgIdx w.cfgWdata] else []) ++ engineOps w.tiltIn ++
        ((if w.inValid then [.pack w.pad] else []) ++ (senderOps w.txDone w.txOk ++
          (if w.inValid then [.enq, .enqPurge] else []))) := by
    rw [← hw, decode_of_noReset _ hrst, List.append_assoc, List.append_assoc]; rfl
  obtain ⟨t, ht, hparams, hrdata, hnxt⟩ := runOps_packSendEnqueue w { s.settle with
    rdata := regRead s.params s.now w.cfgIdx
    nxt := refDebounce s.params s.now w (refRegisterPort w s.now) } rfl rfl (by
      rw [refDebounce_q, refRegisterPort_q]; rfl)
  refine ⟨t, ?_, hparams, ?_, ?_⟩
  · rw [hdecode, runOps_append _ _ _ _ (runOps_portAndEngine w s), ht]
  · rw [hrdata, ← hw]; rfl
  · rw [hnxt, refStep, if_neg (by rw [hreset]; exact Bool.false_ne_true)]; rfl

/-- A step gives what the reference pseudocode of 40_cycle.md R113 gives, and CFG_RDATA is `RegRead(S, CFG_IDX)` (R220). -/
theorem step_eq_reference (s : State) : ∃ t, step s = .next t ∧ t.params = s.params ∧
    t.rdata = regRead s.params s.now (s.word.extractLsb' 8 3) ∧
    t.now = refStep s.params (Config.tiltBitOfCode11 s.cycle) s.now (Stim.ofWord s.word) := by
  cases hrst : s.word.getLsbD 0 with
  | true =>
    refine ⟨_, runCycle_of_runOps (x := s.settle.takeReset.driveRead (s.word.extractLsb' 8 3)) ?_, rfl, rfl, ?_⟩
    · rw [decode_of_reset _ hrst]; rfl
    · simp [refStep, Stim.ofWord, hrst]
  | false =>
    obtain ⟨t, ht, hparams, hrdata, hnxt⟩ := runOps_decode_of_noReset hrst
    exact ⟨t.endCycle, runCycle_of_runOps ht, hparams, hrdata, hnxt⟩

end Sys2Proof.Machine

namespace Sys2Proof.Machine

/-! ### The invariant, part by part -/

theorem Regs.inv_reset {p : Params} (hp : p.WF) : (Regs.reset p).Inv p where
  queueFits := Nat.zero_le _
  noCode11 := nofun
  unknownIff := by simp [Regs.reset]
  unknownLevel _ := rfl
  tiltOfDispatch := nofun
  pulseKnown := nofun
  timerRange := by
    have hclk := hp.2
    simp only [Regs.reset]; omega
  holdingPrimed := nofun
  knownPrimed := nofun
  idleLevel := nofun
  inFlightNew := nofun

/-- A cycle of the engine without a dispatch keeps the invariant, if the timer stays in its range and an engine that
ends the cycle in Idle has sampled the confirmed level. -/
theorem Regs.Inv.sampleQuiet {p : Params} {n : Regs} (h : n.Inv p) {l : Bool} {d : DbState} {c : Nat}
    (htimer : c + 1 ≤ 65535 * p.clkPerMs.toNat) (hidle : d = .idle → n.confKnown = true → n.confLvl = l) :
    Regs.Inv p { n with lvlPrev := l, primed := true, dbState := d, holdCnt := c, tiltChgValid := false } :=
  { h with
    pulseKnown := nofun
    timerRange := htimer
    holdingPrimed := fun _ => rfl
    knownPrimed := fun _ => rfl
    idleLevel := fun hd hk _ => hidle hd hk }

/-- A dispatch keeps the invariant: it confirms the level that the cycle has sampled. -/
theorem Regs.Inv.dispatch {p : Params} {n : Regs} (h : n.Inv p) (S : Regs) (l : Bool) (d : DbState) :
    Regs.Inv p { refDispatch S l { n with lvlPrev := l, primed := true } with dbState := d } :=
  { h with
    noCode11 := by cases h : l ^^ S.ctrl.tiltLvlInv <;> simp [refDispatch, h]
    unknownIff := by cases h : l ^^ S.ctrl.tiltLvlInv <;> simp [refDispatch, h]
    unknownLevel := nofun
    tiltOfDispatch := fun _ => rfl
    pulseKnown := fun _ => rfl
    holdingPrimed := fun _ => rfl
    knownPrimed := fun _ => rfl
    idleLevel := fun _ _ _ => rfl }

theorem holdLen_le (p : Params) (S : Regs) : holdLen p S ≤ 65535 * p.clkPerMs.toNat :=
  Nat.mul_le_mul_right _ (Nat.le_of_lt_succ S.holdMs.isLt)

/-- No edge in a state with the invariant means that the engine in Idle samples the confirmed level (41_debounce.md R140). -/
theorem Regs.Inv.confLvl_eq_of_quiet {p : Params} {S : Regs} (h : S.Inv p) {l : Bool} (hidle : S.dbState = .idle)
    (hedge : edge S l = false) (hknown : S.confKnown = true) : S.confLvl = l := by
  have hprimed := h.knownPrimed hknown
  have hsame : l = S.lvlPrev := by simpa [edge, hprimed] using hedge
  rw [hsame, h.idleLevel hidle hknown hprimed]

/-- The engine keeps the invariant, also after a register write of the same cycle. -/
theorem EngineOutcome.inv {p : Params} {S n' : Regs} {l : Bool} {c : Ctrl} {m : BitVec 16}
    (h : EngineOutcome p S l { S with ctrl := c, holdMs := m } n') (hS : S.Inv p) : n'.Inv p := by
  have hn : Regs.Inv p { S with ctrl := c, holdMs := m } := { hS with }
  have hrange := hS.timerRange
  have hlenle := holdLen_le p S
  cases h with
  | quiet hidle hedge => exact hn.sampleQuiet hrange fun _ hk => hS.confLvl_eq_of_quiet hidle hedge hk
  | arm hidle hedge hlen => exact hn.sampleQuiet (by omega) nofun
  | dispatchNow hidle hedge hlen => exact hn.dispatch S l S.dbState
  | count hholding hcnt => exact hn.sampleQuiet (by omega) fun hd => by rw [hholding] at hd; cases hd
  | confirm hholding hcnt hdiff => exact hn.dispatch S l .idle
  | discard hholding hcnt hdiff =>
    have hsame : S.confKnown = true ∧ S.confLvl = l := by simpa [differs] using hdiff
    exact hn.sampleQuiet hrange fun _ _ => hsame.2

/-- The sender keeps the invariant: a report it fetches is not the one sent last (44_sender.md R201). -/
theorem SenderOutcome.inv {p : Params} {S n n' : Regs} {done ok : Bool} {q : List Report}
    (h : SenderOutcome S done ok n n' q) (hn : n.Inv p) (hlast : n.lastSent = S.lastSent) : n'.Inv p := by
  cases h with
  | empty | duplicate | wait => exact hn
  | fetch _ _ _ _ hnew => exact { hn with inFlightNew := fun _ => hlast ▸ hnew }
  | doneOk | doneFail => exact { hn with inFlightNew := nofun }

theorem SenderOutcome.length_le {S n n' : Regs} {done ok : Bool} {q : List Report}
    (h : SenderOutcome S done ok n n' q) : q.length ≤ S.q.length := by
  cases h with
  | empty _ hq | duplicate _ _ hq | fetch _ _ _ hq => simp [hq]
  | wait | doneOk | doneFail => exact le_rfl

/-- The queue never holds more than CAP reports (43_queue.md R181, R182). -/
theorem length_refEnqueue_le {p : Params} (hp : p.WF) (w : Stim) (report : Report) {q : List Report}
    (hq : q.length ≤ capacity p) : (refEnqueue p w report q).length ≤ capacity p := by
  unfold refEnqueue
  split_ifs with hv hroom
  · rw [List.length_append]; exact hroom
  · exact hp.1
  · exact hq

/-- The whole cycle keeps the invariant. -/
theorem Regs.inv_refStep {p : Params} (hp : p.WF) {S : Regs} (h : S.Inv p) (free : Bool) (w : Stim) :
    (refStep p free S w).Inv p := by
  unfold refStep
  split_ifs
  · exact Regs.inv_reset hp
  · obtain ⟨c, m, hport⟩ := refRegisterPort_eq w S
    have hengine := refDebounce_outcome p S w { S with ctrl := c, holdMs := m }
    have hsender := refSender_outcome S w (refDebounce p S w { S with ctrl := c, holdMs := m })
    obtain ⟨-, -, -, hlast⟩ := hengine.frame
    rw [hport]
    exact { hsender.inv (hengine.inv h) hlast with
      queueFits := length_refEnqueue_le hp w _ (hsender.length_le.trans h.queueFits) }

/-- Settles O9: a step is the reference cycle, and each part of that keeps the invariant. -/
theorem invariantKeptByEveryStep : Obligations.InvariantKeptByEveryStep := by
  intro s t ⟨hp, hS⟩ hst
  obtain ⟨u, hu, hparams, -, hnow⟩ := step_eq_reference s
  cases hu.symm.trans hst
  exact ⟨by rwa [hparams], by rw [hnow, hparams]; exact Regs.inv_refStep hp hS _ _⟩

/-- Settles O10: the reset table has the invariant for all parameters in range, `Config.params` among them. -/
theorem invariantHoldsAfterReset : Obligations.InvariantHoldsAfterReset :=
  have hreset (p : Params) (hp : p.WF) : (State.resetWith p).Inv := ⟨hp, Regs.inv_reset hp⟩
  ⟨hreset, hreset Config.params (by decide)⟩

/-! ### The tilt fields -/

/-- Without the pulse there was no dispatch, and only a dispatch writes the TiltState and the confirmed level
(41_debounce.md R138). -/
theorem EngineOutcome.tilt_of_noPulse {p : Params} {S n n' : Regs} {l : Bool} (h : EngineOutcome p S l n n')
    (hpulse : n'.tiltChgValid = false) :
    n'.tiltState = n.tiltState ∧ n'.confKnown = n.confKnown ∧ n'.confLvl = n.confLvl ∧
      n'.tiltChgTilted = n.tiltChgTilted := by
  cases h with
  | quiet | arm | count | discard => exact ⟨rfl, rfl, rfl, rfl⟩
  | dispatchNow | confirm => cases hpulse

theorem SenderOutcome.tilt {S n n' : Regs} {done ok : Bool} {q : List Report} (h : SenderOutcome S done ok n n' q) :
    n'.tiltChgValid = n.tiltChgValid ∧ n'.tiltState = n.tiltState ∧ n'.confKnown = n.confKnown ∧
      n'.confLvl = n.confLvl ∧ n'.tiltChgTilted = n.tiltChgTilted := by
  cases h <;> exact ⟨rfl, rfl, rfl, rfl, rfl⟩

/-- Settles O33: of the parts of a cycle only the engine writes these fields, and it does so only in a dispatch. -/
theorem tiltChangesOnlyWithADispatch : Obligations.TiltChangesOnlyWithADispatch := by
  intro s hrst
  obtain ⟨t, ht, -, -, hnow⟩ := step_eq_reference s
  refine ⟨t, ht, ?_⟩
  generalize hw : Stim.ofWord s.word = w at hnow
  have hreset : w.rst = false := by rw [← hw]; exact hrst
  obtain ⟨c, m, hport⟩ := refRegisterPort_eq w s.now
  have hengine := refDebounce_outcome s.params s.now w { s.now with ctrl := c, holdMs := m }
  obtain ⟨hvalid, htilt, hknown, hlvl, hchg⟩ :=
    (refSender_outcome s.now w (refDebounce s.params s.now w { s.now with ctrl := c, holdMs := m })).tilt
  simp only [hnow, refStep, hreset, hport, hvalid, htilt, hknown, hlvl, hchg, Bool.false_eq_true, if_false]
  exact hengine.tilt_of_noPulse

/-! ### The ports -/

/-- Settles O58: the ports are copies of the state, and the step records the same `RegRead`. -/
theorem portsFollowTheState : Obligations.PortsFollowTheState := by
  intro s
  obtain ⟨t, ht, -, hrdata, -⟩ := step_eq_reference s
  exact ⟨t, ht, rfl, rfl, rfl, beq_iff_eq, rfl, rfl, rfl, hrdata.symm⟩

/-! ### STATUS -/

theorem regRead_status (p : Params) (S : Regs) : regRead p S 2 = statusWord S := rfl

theorem DbState.code_getElem (d : DbState) : d.code[0] = decide (d = .holding) := by
  cases d <;> rfl

theorem SndState.code_getElem (d : SndState) : d.code[0] = decide (d = .tx) := by
  cases d <;> rfl

theorem statusWord_reset (p : Params) : statusWord (Regs.reset p) = 0 := by
  simp [statusWord, queueCount, Regs.reset, bit, TiltState.code, SndState.code, DbState.code]

/-- The field of the TiltState stands above the two 1-bit fields, and four 1-bit fields and the count stand above it. -/
theorem extract_tiltState_statusWord (S : Regs) : (statusWord S).extractLsb' 2 2 = S.tiltState.code := by
  unfold statusWord
  rw [BitVec.extractLsb'_append_eq_of_le (by decide), BitVec.extractLsb'_append_eq_of_le (by decide),
    BitVec.extractLsb'_append_eq_of_add_le (by decide)]
  exact BitVec.extractLsb'_eq_self

/-- Above the eight flag bits stand the queue's count and the 16 zero bits. -/
theorem extract_statusWord_of_flags_le (S : Regs) {start len : Nat} (h : 8 ≤ start) :
    (statusWord S).extractLsb' start len = (0#16 ++ queueCount S).extractLsb' (start - 8) len := by
  unfold statusWord
  simp (disch := omega) only [BitVec.extractLsb'_append_eq_of_le, Nat.sub_sub]

/-- Settles O20: each field by its place in the concatenation that STATUS is. -/
theorem statusBitsAreTheStateFields : Obligations.StatusBitsAreTheStateFields := by
  refine ⟨fun p => by rw [regRead_status, statusWord_reset], fun p S => ?_⟩
  rw [regRead_status]
  refine ⟨?_, ?_, extract_tiltState_statusWord S, ?_, ?_, ?_, ?_, ?_, ?_⟩
  · simp only [statusWord, BitVec.getLsbD_append]; simp [DbState.code_getElem]
  · simp only [statusWord, BitVec.getLsbD_append]; simp [SndState.code_getElem]
  · simp only [statusWord, BitVec.getLsbD_append]; simp [bit]
  · simp only [statusWord, BitVec.getLsbD_append]; simp [bit]
  · simp only [statusWord, BitVec.getLsbD_append]; simp [bit]
  · simp only [statusWord, BitVec.getLsbD_append]; simp [bit]
  · rw [extract_statusWord_of_flags_le S le_rfl, BitVec.extractLsb'_append_eq_of_add_le (by decide)]
    simp [queueCount]
  · rw [extract_statusWord_of_flags_le S (by decide), BitVec.extractLsb'_append_eq_of_le (by decide)]
    exact BitVec.extractLsb'_eq_self

end Sys2Proof.Machine

namespace Sys2Proof.Machine

/-! ### The placed word -/

/-- Settles O6: the placed word stands at the front of the words to come, where the next step reads it. -/
theorem placedWordDrivesTheNextCycle : Obligations.PlacedWordDrivesTheNextCycle := by
  intro s nbits w
  have hword : (s.withFetchWord nbits w).word = BitVec.ofNat 128 (w % 2 ^ nbits) := State.word_placed s _
  exact ⟨hword, by rw [step, hword], rfl⟩

/-! ### LAST_LO and LAST_HI -/

theorem regRead_lastLo (p : Params) (S : Regs) : regRead p S 4 = S.lastSent.extractLsb' 0 32 := rfl

theorem regRead_lastHi (p : Params) (S : Regs) : regRead p S 5 = 0#24 ++ S.lastSent.extractLsb' 32 8 := rfl

/-- LAST_LO holds the first four bytes (20_memory.md R62). -/
theorem extract_lastLo (p : Params) (S : Regs) {k : Nat} (hk : k < 4) :
    (regRead p S 4).extractLsb' (8 * k) 8 = reportByte S.lastSent k := by
  rw [regRead_lastLo, BitVec.extractLsb'_extractLsb'_of_le (by omega), reportByte]

/-- LAST_HI holds the fifth byte, below its zero bits (20_memory.md R62). -/
theorem extract_lastHi (p : Params) (S : Regs) : (regRead p S 5).extractLsb' 0 8 = reportByte S.lastSent 4 := by
  rw [regRead_lastHi, BitVec.extractLsb'_append_eq_right, reportByte]

/-- LAST_HI above its byte (10_state.md R41). -/
theorem extract_lastHi_reserved (p : Params) (S : Regs) : (regRead p S 5).extractLsb' 8 24 = 0 := by
  rw [regRead_lastHi, BitVec.extractLsb'_append_eq_left]; rfl

/-- Settles O21: bytes 0 to 3 are in LAST_LO, and byte 4 is the low byte of LAST_HI. -/
theorem lastRegistersHoldTheReportBytes : Obligations.LastRegistersHoldTheReportBytes := by
  refine fun p S => ⟨fun k hk => ?_, extract_lastHi_reserved p S⟩
  obtain hlo | rfl : k < 4 ∨ k = 4 := by omega
  · rw [Nat.div_eq_of_lt hlo, Nat.mod_eq_of_lt hlo]
    exact extract_lastLo p S hlo
  · exact extract_lastHi p S

end Sys2Proof.Machine

namespace Sys2Proof

/-! ### The stimulus word and its fields -/

/-- Each field stands at its place of 30_encoding.md R90, the one-bit fields first. -/
theorem ofWord_toWord (f : Stim) : Stim.ofWord f.toWord = f := by
  have hbits : f.toWord.getLsbD 0 = f.rst ∧ f.toWord.getLsbD 1 = f.tiltIn ∧ f.toWord.getLsbD 2 = f.inValid ∧
      f.toWord.getLsbD 3 = f.txDone ∧ f.toWord.getLsbD 4 = f.txOk ∧ f.toWord.getLsbD 5 = f.cfgWe := by
    simp only [Stim.toWord, BitVec.getLsbD_append]
    simp [bit]
  obtain ⟨hrst, htilt, hvalid, hdone, hok, hwe⟩ := hbits
  simp only [Stim.ofWord, hrst, htilt, hvalid, hdone, hok, hwe]
  simp (disch := omega) only [Stim.toWord, BitVec.extractLsb'_append_eq_of_le,
    BitVec.extractLsb'_append_eq_of_add_le, BitVec.extractLsb'_eq_self, Nat.reduceSub]

/-- The upper part of a concatenation is shifted, within any width. -/
theorem setWidth_append_eq_or {n m v : Nat} (x : BitVec n) (y : BitVec m) :
    (x ++ y).setWidth v = y.setWidth v ||| x.setWidth v <<< m := by
  apply BitVec.eq_of_getLsbD_eq
  intro k hk
  by_cases hkm : k < m
  · simp [BitVec.getLsbD_append, hk, hkm]
  · simp [BitVec.getLsbD_append, hk, hkm, BitVec.getLsbD_of_ge y k (not_lt.mp hkm)]

/-- The word as the sum of its shifted fields (30_encoding.md R97). -/
theorem toWord_eq_or_shiftLeft (f : Stim) : f.toWord =
    (bit f.rst).setWidth 128 ||| (bit f.tiltIn).setWidth 128 <<< 1 ||| (bit f.inValid).setWidth 128 <<< 2 |||
      (bit f.txDone).setWidth 128 <<< 3 ||| (bit f.txOk).setWidth 128 <<< 4 ||| (bit f.cfgWe).setWidth 128 <<< 5 |||
      f.cfgIdx.setWidth 128 <<< 8 ||| f.pad.btn.setWidth 128 <<< 16 ||| f.pad.ax.setWidth 128 <<< 32 |||
      f.pad.ay.setWidth 128 <<< 40 ||| f.pad.aux.setWidth 128 <<< 48 ||| f.cfgWdata.setWidth 128 <<< 64 := by
  rw [← BitVec.setWidth_eq f.toWord]
  unfold Stim.toWord
  simp only [setWidth_append_eq_or, BitVec.shiftLeft_or_distrib, ← BitVec.shiftLeft_add, BitVec.setWidth_zero,
    BitVec.zero_shiftLeft, BitVec.zero_or, BitVec.or_zero, ← BitVec.or_assoc]

/-- A field of a word, shifted back to its place, is the word under the field's mask. -/
theorem extractLsb'_shiftLeft_eq_and {v : Nat} (w : BitVec v) (start len : Nat) :
    (w.extractLsb' start len).setWidth v <<< start = w &&& (BitVec.allOnes len).setWidth v <<< start := by
  apply BitVec.eq_of_getLsbD_eq
  intro k hk
  by_cases hks : k < start
  · simp [hks]
  · simp [hk, hks, show start + (k - start) = k by omega, Bool.and_comm]

theorem bit_getLsbD {v : Nat} (w : BitVec v) (k : Nat) : bit (w.getLsbD k) = w.extractLsb' k 1 := by
  apply BitVec.eq_of_getLsbD_eq
  intro i hi
  simp [bit, Nat.lt_one_iff.mp hi]

/-- The masks of the fields make up all bits that are not reserved (30_encoding.md R93). -/
theorem toWord_ofWord (w : Word) : (Stim.ofWord w).toWord = w &&& ~~~reservedBits := by
  have hrst : (bit (w.getLsbD 0)).setWidth 128 = w &&& (BitVec.allOnes 1).setWidth 128 := by
    simpa only [bit_getLsbD, BitVec.shiftLeft_zero] using extractLsb'_shiftLeft_eq_and w 0 1
  simp only [toWord_eq_or_shiftLeft, Stim.ofWord, hrst]
  simp only [bit_getLsbD, extractLsb'_shiftLeft_eq_and, ← BitVec.and_or_distrib_left]
  rfl

/-- Settles O1: the fields are read where the word has them, and their masks leave out the reserved bits. -/
theorem stimulusFieldsRoundTrip : Obligations.StimulusFieldsRoundTrip :=
  fun f w => ⟨ofWord_toWord f, toWord_ofWord w⟩

/-! ### Reserved bits -/

/-- Reading the fields passes over the reserved bits. -/
theorem ofWord_eq_of_and_notReserved_eq {w w' : Word} (h : w &&& ~~~reservedBits = w' &&& ~~~reservedBits) :
    Stim.ofWord w = Stim.ofWord w' := by
  rw [← ofWord_toWord (Stim.ofWord w), ← ofWord_toWord (Stim.ofWord w'), toWord_ofWord, toWord_ofWord, h]

/-- The operations that a word selects depend on its fields alone. -/
theorem decode_eq_of_ofWord_eq {w w' : Word} (h : Stim.ofWord w = Stim.ofWord w') : decode w = decode w' := by
  have hrst : w.getLsbD 0 = w'.getLsbD 0 := congrArg Stim.rst h
  have htilt : w.getLsbD 1 = w'.getLsbD 1 := congrArg Stim.tiltIn h
  have hvalid : w.getLsbD 2 = w'.getLsbD 2 := congrArg Stim.inValid h
  have hdone : w.getLsbD 3 = w'.getLsbD 3 := congrArg Stim.txDone h
  have hok : w.getLsbD 4 = w'.getLsbD 4 := congrArg Stim.txOk h
  have hwe : w.getLsbD 5 = w'.getLsbD 5 := congrArg Stim.cfgWe h
  have hidx : w.extractLsb' 8 3 = w'.extractLsb' 8 3 := congrArg Stim.cfgIdx h
  have hdata : w.extractLsb' 64 32 = w'.extractLsb' 64 32 := congrArg Stim.cfgWdata h
  cases hreset : w'.getLsbD 0 with
  | true => rw [decode_of_reset w (hrst.trans hreset), decode_of_reset w' hreset, hidx]
  | false =>
    rw [decode_of_noReset w (hrst.trans hreset), decode_of_noReset w' hreset, h, htilt, hvalid, hdone, hok, hwe, hidx,
      hdata]

/-- Settles O4: a cycle reads its word only through `decode`, and that reads only the fields. -/
theorem reservedBitsChangeNothing : Obligations.ReservedBitsChangeNothing := by
  intro s w w' h
  simp only [Machine.runCycle, decode_eq_of_ofWord_eq (ofWord_eq_of_and_notReserved_eq h)]

/-! ### Encoding an operation -/

theorem and_reservedBits_toWord (f : Stim) : f.toWord &&& reservedBits = 0#128 := by
  have h := toWord_ofWord f.toWord
  rw [ofWord_toWord] at h
  rw [h, BitVec.and_assoc]
  simp

theorem and_reservedBits_patternValue (i : Instr) : i.pattern.value.setWidth 128 &&& reservedBits = 0#128 := by
  cases i <;> simp [Instr.pattern, reservedBits]

theorem reservedClear_encode (i : Instr) : reservedClear (encode i) = true := by
  simp only [reservedClear, encode, BitVec.and_or_distrib_right, and_reservedBits_toWord, and_reservedBits_patternValue,
    BitVec.or_zero, beq_self_eq_true]

/-- Every operation's word meets its row's pattern. -/
theorem accepts_pattern_encode (i : Instr) : i.pattern.accepts (encode i) = true := by
  cases i with
  | reset => exact Laws.EncodesItsPattern.reset
  | cfgRead idx => exact Laws.EncodesItsPattern.cfgRead idx
  | cfgWrCtrl d => exact Laws.EncodesItsPattern.cfgWrCtrl d
  | cfgWrHold d => exact Laws.EncodesItsPattern.cfgWrHold d
  | cfgWrStatus d => exact Laws.EncodesItsPattern.cfgWrStatus d
  | cfgWrParam d => exact Laws.EncodesItsPattern.cfgWrParam d
  | cfgWrLastLo d => exact Laws.EncodesItsPattern.cfgWrLastLo d
  | cfgWrLastHi d => exact Laws.EncodesItsPattern.cfgWrLastHi d
  | cfgWrRsvd6 d => exact Laws.EncodesItsPattern.cfgWrRsvd6 d
  | cfgWrRsvd7 d => exact Laws.EncodesItsPattern.cfgWrRsvd7 d
  | dbSample l => exact Laws.EncodesItsPattern.dbSample l
  | dbQuiet l => exact Laws.EncodesItsPattern.dbQuiet l
  | dbEdgeArm l => exact Laws.EncodesItsPattern.dbEdgeArm l
  | dbEdgeImm l => exact Laws.EncodesItsPattern.dbEdgeImm l
  | dbEdgeMasked l => exact Laws.EncodesItsPattern.dbEdgeMasked l
  | dbCount l => exact Laws.EncodesItsPattern.dbCount l
  | dbExpireConfirm l => exact Laws.EncodesItsPattern.dbExpireConfirm l
  | dbExpireDiscard l => exact Laws.EncodesItsPattern.dbExpireDiscard l
  | pack g => exact Laws.EncodesItsPattern.pack g
  | enq => exact Laws.EncodesItsPattern.enq
  | enqPurge => exact Laws.EncodesItsPattern.enqPurge
  | deq => exact Laws.EncodesItsPattern.deq
  | sndEmpty => exact Laws.EncodesItsPattern.sndEmpty
  | sndFetchDup => exact Laws.EncodesItsPattern.sndFetchDup
  | sndFetchNew => exact Laws.EncodesItsPattern.sndFetchNew
  | sndWait => exact Laws.EncodesItsPattern.sndWait
  | sndDoneOk => exact Laws.EncodesItsPattern.sndDoneOk
  | sndDoneFail => exact Laws.EncodesItsPattern.sndDoneFail
  | sndDoneIgnored ok => exact Laws.EncodesItsPattern.sndDoneIgnored ok

/-- Where the row's match has no bits, the word holds the operand fields alone. -/
theorem extractLsb'_encode (i : Instr) {start len : Nat} (hin : start + len ≤ 128)
    (h : i.pattern.value.extractLsb' start len = 0) :
    (encode i).extractLsb' start len = i.operandFields.toWord.extractLsb' start len := by
  rw [encode, BitVec.extractLsb'_or, BitVec.extractLsb'_setWidth_of_le hin, h]
  simp

theorem getLsbD_encode (i : Instr) {k : Nat} (h : i.pattern.value.getLsbD k = false) :
    (encode i).getLsbD k = i.operandFields.toWord.getLsbD k := by
  rw [encode, BitVec.getLsbD_or, BitVec.getLsbD_setWidth, h, Bool.and_false, Bool.false_or]

theorem extractLsb'_patternValue_of_le (i : Instr) {start len : Nat} (h : 11 ≤ start) :
    i.pattern.value.extractLsb' start len = 0 := by
  apply BitVec.eq_of_getLsbD_eq
  intro k hk
  simp [BitVec.getLsbD_of_ge i.pattern.value (start + k) (by omega)]

theorem ofWord_encode_pad (i : Instr) : (Stim.ofWord (encode i)).pad = i.operandFields.pad := by
  conv_rhs => rw [← ofWord_toWord i.operandFields]
  simp [Stim.ofWord, extractLsb'_encode, extractLsb'_patternValue_of_le]

theorem ofWord_encode_cfgWdata (i : Instr) : (Stim.ofWord (encode i)).cfgWdata = i.operandFields.cfgWdata := by
  conv_rhs => rw [← ofWord_toWord i.operandFields]
  simp [Stim.ofWord, extractLsb'_encode, extractLsb'_patternValue_of_le]

/-- No row tests TILT_IN. -/
theorem ofWord_encode_tiltIn (i : Instr) : (Stim.ofWord (encode i)).tiltIn = i.operandFields.tiltIn := by
  have hmatch : i.pattern.value.getLsbD 1 = false := by cases i <;> simp [Instr.pattern]
  conv_rhs => rw [← ofWord_toWord i.operandFields]
  exact getLsbD_encode i hmatch

theorem ofWord_encode_txOk (i : Instr) (h : i.pattern.value.getLsbD 4 = false) :
    (Stim.ofWord (encode i)).txOk = i.operandFields.txOk := by
  conv_rhs => rw [← ofWord_toWord i.operandFields]
  exact getLsbD_encode i h

theorem ofWord_encode_cfgIdx (i : Instr) (h : i.pattern.value.extractLsb' 8 3 = 0) :
    (Stim.ofWord (encode i)).cfgIdx = i.operandFields.cfgIdx := by
  conv_rhs => rw [← ofWord_toWord i.operandFields]
  exact extractLsb'_encode i (by decide) h

/-- An operation is one of the 29 with the operands that its own word holds. -/
theorem mem_operations_encode (i : Instr) : i ∈ (Stim.ofWord (encode i)).operations := by
  cases i with
  | cfgRead idx =>
    have hidx := ofWord_encode_cfgIdx (.cfgRead idx) (by simp [Instr.pattern])
    simp [Stim.operations, hidx, Instr.operandFields]
  | sndDoneIgnored ok =>
    have hok := ofWord_encode_txOk (.sndDoneIgnored ok) (by simp [Instr.pattern])
    simp [Stim.operations, hok, Instr.operandFields]
  | pack g => simp [Stim.operations, ofWord_encode_pad, Instr.operandFields]
  | cfgWrCtrl | cfgWrHold | cfgWrStatus | cfgWrParam | cfgWrLastLo | cfgWrLastHi | cfgWrRsvd6 | cfgWrRsvd7 =>
    simp [Stim.operations, ofWord_encode_cfgWdata, Instr.operandFields]
  | dbSample | dbQuiet | dbEdgeArm | dbEdgeImm | dbEdgeMasked | dbCount | dbExpireConfirm | dbExpireDiscard =>
    simp [Stim.operations, ofWord_encode_tiltIn, Instr.operandFields]
  | reset | enq | enqPurge | deq | sndEmpty | sndFetchDup | sndFetchNew | sndWait | sndDoneOk | sndDoneFail =>
    simp [Stim.operations]

theorem mem_decode_encode (i : Instr) : i ∈ decode (encode i) :=
  (mem_decode i (encode i)).mpr ⟨mem_operations_encode i, accepts_pattern_encode i⟩

/-- Settles O2: the operation's row accepts its word, the word holds its operands, and neither the row's match bits nor
the operand fields touch a reserved bit. -/
theorem operationsEncodeAndDecode : Obligations.OperationsEncodeAndDecode :=
  fun i => ⟨mem_decode_encode i, reservedClear_encode i⟩

/-! ### Words written out -/

theorem mem_decode_of_eq_encode {i : Instr} {w : Word} (h : w = encode i) : i ∈ decode w :=
  h ▸ mem_decode_encode i

/-- Settles O3: the first word has RST, and each of the others is an operation's encoding. -/
theorem sampleWordsSelectTheirOperations : Obligations.SampleWordsSelectTheirOperations :=
  ⟨decode_of_reset _ rfl, mem_decode_of_eq_encode rfl, mem_decode_of_eq_encode rfl, mem_decode_of_eq_encode rfl,
    mem_decode_of_eq_encode rfl, mem_decode_of_eq_encode rfl, mem_decode_of_eq_encode rfl⟩

end Sys2Proof

namespace Sys2Proof.Machine

/-! ### Trace lines -/

theorem assembleItems_cons {prev : Bool} {items : List TraceItem} {rest : List (List TraceItem)} {words : List Word}
    (hcheck : checkItems items = .ok ()) (hrest : assembleItems (lineFields prev items).tiltIn rest = .ok words) :
    assembleItems prev (items :: rest) = .ok ((lineFields prev items).toWord :: words) := by
  simp only [assembleItems, hcheck, hrest]
  rfl

/-- Settles O56: the sum is `toWord`, and a checked line is assembled into the `toWord` of its fields. -/
theorem traceLineWordIsTheStatedEncoding : Obligations.TraceLineWordIsTheStatedEncoding := by
  refine ⟨toWord_eq_or_shiftLeft, fun prev items hcheck => ?_⟩
  rw [assembleItems_cons hcheck rfl, toWord_eq_or_shiftLeft]
  rfl

/-- Lines without items keep the level of the line before them (30_encoding.md R97). -/
theorem assembleItems_replicate_nil (v : Bool) (k : Nat) :
    assembleItems v (List.replicate k []) = .ok (List.replicate k { Stim.zero with tiltIn := v }.toWord) := by
  induction k with
  | zero => rfl
  | succ k ih => exact assembleItems_cons rfl ih

theorem expand_hold (v : Bool) {k : Nat} (hk : 1 ≤ k) :
    (TraceLine.hold v k).expand = .ok ([.tilt v] :: List.replicate (k - 1) []) := by
  cases k with
  | zero => contradiction
  | succ k => rfl

/-- Settles O57: the expansions by definition, `hold` for at least one cycle, and idle lines by induction. -/
theorem pseudoOperationsExpand : Obligations.PseudoOperationsExpand := by
  refine ⟨rfl, fun _ => rfl, fun _ => rfl, fun v _ => expand_hold v, fun _ _ _ _ => rfl, rfl, rfl, fun v k => ?_⟩
  refine ⟨_, assembleItems_replicate_nil v k, List.length_replicate, fun w hw => ?_⟩
  rw [List.eq_of_mem_replicate hw, ofWord_toWord]

/-! ### The operations of a step -/

/-- Settles O13: every operation is guarded by its condition. -/
theorem operationsNotEnabledChangeNothing : Obligations.OperationsNotEnabledChangeNothing :=
  fun _ _ => exec_of_condition_false

/-- Settles O5: each stretch of the cycle's list runs to a next state and leaves the frame alone. -/
theorem stepRunsEachSelectedOperation : Obligations.StepRunsEachSelectedOperation := by
  intro s before i after hdecode
  obtain ⟨u, hu, hframe⟩ := runOps_sameFrame before s.settle
  obtain ⟨v, hv, hexec⟩ := exec_sameFrame i u
  obtain ⟨x, hx, -⟩ := runOps_sameFrame after v
  have hrun : runOps (decode s.word) s.settle = .next x := by
    rw [hdecode, runOps_append before _ _ u hu, runOps_cons_next i after u v hv, hx]
  have hall := hframe.trans hexec
  exact ⟨u, v, x, hu, hframe.now, hframe.params, hframe.stim, hframe.cycle, hv, hall.now, hall.params, hx,
    runCycle_of_runOps hrun⟩

end Sys2Proof.Machine

namespace Sys2Proof.Machine

/-! ### The enabled operations, group by group -/

/-- How many operations of a group are enabled in a state, of those in a list (30_encoding.md R92). -/
def enabledCount (s : State) (g : Group) (l : List Instr) : Nat :=
  ((l.filter fun i => condition i s).filter fun i => group i == g).length

@[simp] theorem enabledCount_nil (s : State) (g : Group) : enabledCount s g [] = 0 := rfl

@[simp] theorem enabledCount_cons (s : State) (g : Group) (i : Instr) (l : List Instr) :
    enabledCount s g (i :: l) = (if condition i s = true ∧ group i = g then 1 else 0) + enabledCount s g l := by
  by_cases hc : condition i s = true <;> by_cases hg : group i = g <;> simp [enabledCount, hc, hg, Nat.add_comm]

@[simp] theorem enabledCount_append (s : State) (g : Group) (l m : List Instr) :
    enabledCount s g (l ++ m) = enabledCount s g l + enabledCount s g m := by
  simp [enabledCount]

@[simp] theorem enabledCount_ite (s : State) (g : Group) (c : Prop) [Decidable c] (l m : List Instr) :
    enabledCount s g (if c then l else m) = if c then enabledCount s g l else enabledCount s g m :=
  apply_ite _ c l m

theorem condition_registerWrite (i : BitVec 3) (d : RegWord) (s : State) :
    condition (registerWrite i d) s = true := by
  fin_cases i <;> rfl

theorem group_registerWrite (i : BitVec 3) (d : RegWord) : group (registerWrite i d) = .regWrite := by
  fin_cases i <;> rfl

/-- Whatever the engine does in a cycle, one of its operations is enabled to do it (41_debounce.md R132 to R139). -/
theorem EngineOutcome.enabledCount_debounce {s : State} {l : Bool} {n n' : Regs}
    (h : EngineOutcome s.params s.now l n n') : enabledCount s .debounce (engineOps l) = 1 := by
  simp only [engineOps, enabledCount_cons, enabledCount_nil, group, condition, mayQuiet, mayArm, mayDispatchNow, mayCount,
    mayConfirm, mayDiscard, isIdle, isHolding]
  cases h with
  | quiet hidle hedge => simp [hidle, hedge]
  | arm hidle hedge hlen => simp [hidle, hedge, hlen, Nat.one_le_iff_ne_zero.mp hlen]
  | dispatchNow hidle hedge hlen => simp [hidle, hedge, hlen]
  | count hholding hcnt => simp [hholding, hcnt]
  | confirm hholding hcnt hdiff => simp [hholding, hcnt, hdiff]
  | discard hholding hcnt hdiff => simp [hholding, hcnt, hdiff]

theorem enabledCount_debounce_engineOps (s : State) (l : Bool) : enabledCount s .debounce (engineOps l) = 1 :=
  (refDebounce_outcome s.params s.now { Stim.zero with tiltIn := l } s.now).enabledCount_debounce

/-- While a write is in flight exactly one of SND_WAIT, SND_DONE_OK and SND_DONE_FAIL is selected and enabled. -/
theorem enabledCount_sender_senderOps_eq (s : State) (done ok : Bool) :
    enabledCount s .sender (senderOps done ok) =
      (if mayStayEmpty s then 1 else 0) + (if mayDiscardDup s then 1 else 0) + (if mayFetchNew s then 1 else 0) +
        (if senderBusy s then 1 else 0) := by
  cases done <;> cases ok <;> simp [senderOps, group, condition, Nat.add_assoc]

/-- Whatever the sender does in a cycle, one of its operations is enabled to do it (44_sender.md R200 to R206). -/
theorem SenderOutcome.enabledCount_sender {s : State} {done ok : Bool} {n n' : Regs} {q : List Report}
    (h : SenderOutcome s.now done ok n n' q) : enabledCount s .sender (senderOps done ok) = 1 := by
  simp only [enabledCount_sender_senderOps_eq, mayDequeue, mayStayEmpty, mayDiscardDup, mayFetchNew, senderFree, senderBusy]
  cases h with
  | empty hfree hq => simp [hfree, hq]
  | duplicate rest hfree hq => simp [hfree, hq]
  | fetch h rest hfree hq hnew => simp [hfree, hq, hnew]
  | wait hbusy | doneOk hbusy | doneFail hbusy => simp [hbusy]

theorem enabledCount_sender_senderOps (s : State) (done ok : Bool) : enabledCount s .sender (senderOps done ok) = 1 :=
  (refSender_outcome s.now { Stim.zero with txDone := done, txOk := ok } s.now).enabledCount_sender

/-! ### The count of each group, part by part -/

/-- An operation without a state condition counts for its own group. -/
theorem enabledCount_singleton {s : State} {i : Instr} (h : condition i s = true) (g : Group) :
    enabledCount s g [i] = if group i = g then 1 else 0 := by
  simp [h]

theorem enabledCount_engineOps (s : State) (g : Group) (l : Bool) : enabledCount s g (engineOps l) =
    if g = .debounce ∨ g = .debounceSample then 1 else if g = .debounceMask ∧ mayMask l s then 1 else 0 := by
  cases g with
  | debounce => exact enabledCount_debounce_engineOps s l
  | _ => simp [engineOps, group, condition]

theorem enabledCount_senderOps (s : State) (g : Group) (done ok : Bool) : enabledCount s g (senderOps done ok) =
    if g = .sender then 1 else if g = .dequeue ∧ mayDequeue s then 1
      else if g = .senderIgnore ∧ done ∧ senderFree s then 1 else 0 := by
  cases g with
  | sender => exact enabledCount_sender_senderOps s done ok
  | _ => cases done <;> cases ok <;> simp [senderOps, group, condition]

/-- A packed report is appended, or it is put into the purged queue (43_queue.md R181, R182). -/
theorem enabledCount_enqueueOps (s : State) (g : Group) : enabledCount s g [.enq, .enqPurge] =
    if g = .enqueue ∧ s.r.isSome then 1 else 0 := by
  cases g with
  | enqueue => by_cases hroom : s.q1.length < capacity s.params <;> simp [group, condition, mayEnqueue, mayPurge, hroom]
  | _ => simp [group]

/-- How many operations of each group are enabled in a cycle without RST (30_encoding.md R92). -/
def groupLoad (w : Stim) (s : State) : Group → Nat
  | .reset => 0
  | .regRead | .debounceSample | .debounce | .sender => 1
  | .regWrite => w.cfgWe.toNat
  | .debounceMask => (mayMask w.tiltIn s).toNat
  | .pack => w.inValid.toNat
  | .enqueue => (w.inValid && s.r.isSome).toNat
  | .dequeue => (mayDequeue s).toNat
  | .senderIgnore => (w.txDone && senderFree s).toNat

theorem groupLoad_le_one (w : Stim) (s : State) (g : Group) : groupLoad w s g ≤ 1 := by
  cases g <;> simp [groupLoad, Bool.toNat_le]

/-- The parts of the cycle's list, each counted by its own lemma. -/
theorem enabledCount_decode_of_noReset {w : Word} (s : State) (h : w.getLsbD 0 = false) (g : Group) :
    enabledCount s g (decode w) = groupLoad (Stim.ofWord w) s g := by
  have hread := enabledCount_singleton (s := s) (i := .cfgRead (w.extractLsb' 8 3)) rfl g
  have hwrite := enabledCount_singleton (condition_registerWrite (w.extractLsb' 8 3) (w.extractLsb' 64 32) s) g
  have hpack := enabledCount_singleton (s := s) (i := .pack (Stim.ofWord w).pad) rfl g
  rw [group_registerWrite] at hwrite
  rw [decode_of_noReset w h]
  simp only [enabledCount_append, enabledCount_ite, hread, hwrite, hpack, enabledCount_engineOps, enabledCount_senderOps,
    enabledCount_enqueueOps, enabledCount_nil, group]
  cases g <;> simp [groupLoad, Bool.toNat, Stim.ofWord, ite_and]

/-- RESET and CFG_READ have no state condition. -/
theorem enabled_decode_of_reset {w : Word} (s : State) (h : w.getLsbD 0 = true) :
    (decode w).filter (fun i => condition i s) = [.reset, .cfgRead (w.extractLsb' 8 3)] := by
  rw [decode_of_reset w h]
  rfl

theorem enabledCount_decode_of_reset {w : Word} (s : State) (h : w.getLsbD 0 = true) (g : Group) :
    enabledCount s g (decode w) ≤ 1 := by
  rw [decode_of_reset w h]
  cases g <;> simp [group, condition]

/-- Settles O15: in a reset word the list is written out, in every other word the counts are those of `groupLoad`. -/
theorem oneOperationOfEachGroup : Obligations.OneOperationOfEachGroup := by
  intro w s
  cases hrst : w.getLsbD 0 with
  | true => exact ⟨enabledCount_decode_of_reset s hrst, nofun, fun _ => enabled_decode_of_reset s hrst⟩
  | false =>
    have hcount := enabledCount_decode_of_noReset s hrst
    exact ⟨fun g => (hcount g).trans_le (groupLoad_le_one _ s g),
      fun _ => ⟨hcount .debounce, hcount .sender, hcount .debounceSample⟩, nofun⟩

end Sys2Proof.Machine

namespace Sys2Proof.Machine

/-! ### A step as a whole -/

/-- Settles O8: `step_eq_reference`, which follows the parts of a cycle one by one. -/
theorem stepAgreesWithTheReferenceCycle : Obligations.StepAgreesWithTheReferenceCycle := by
  intro s
  obtain ⟨t, ht, -, hrdata, hnow⟩ := step_eq_reference s
  exact ⟨t, ht, hnow, hrdata⟩

/-- Settles O7: the operations leave the frame of the cycle alone, and the end of the cycle settles it. -/
theorem everyStepAnswersANextState : Obligations.EveryStepAnswersANextState := by
  intro s
  obtain ⟨x, hx, hframe⟩ := runOps_sameFrame (decode s.word) s.settle
  exact ⟨x.endCycle, runCycle_of_runOps hx, x.endCycle_settled, hframe.params, congrArg List.tail hframe.stim,
    congrArg (· + 1) hframe.cycle⟩

/-- The reference cycle together with what the step consumes. -/
theorem step_eq_reference_and_consumes (s : State) : ∃ t, step s = .next t ∧ t.params = s.params ∧
    t.stim = s.stim.tail ∧
    t.now = refStep s.params (Config.tiltBitOfCode11 s.cycle) s.now (Stim.ofWord s.word) := by
  obtain ⟨t, ht, hparams, -, hnow⟩ := step_eq_reference s
  obtain ⟨u, hu, -, -, hstim, -⟩ := everyStepAnswersANextState s
  cases hu.symm.trans ht
  exact ⟨t, ht, hparams, hstim, hnow⟩

/-! ### The owner of each field (40_cycle.md R112) -/

/-- From `n` to `n'` only fields of `S'` that operations of group `g` own are written. -/
structure Regs.WritesOnly (g : Group) (n n' : Regs) : Prop where
  port : g ∉ [.reset, .regWrite] → n'.ctrl = n.ctrl ∧ n'.holdMs = n.holdMs
  sample : g ∉ [.reset, .debounceSample] → n'.lvlPrev = n.lvlPrev ∧ n'.primed = n.primed
  engine : g ∉ [.reset, .debounce] →
    n'.dbState = n.dbState ∧ n'.holdCnt = n.holdCnt ∧ n'.confKnown = n.confKnown ∧ n'.confLvl = n.confLvl ∧
      n'.tiltState = n.tiltState ∧ n'.tiltChgValid = n.tiltChgValid ∧ n'.tiltChgTilted = n.tiltChgTilted
  sender : g ∉ [.reset, .sender] → n'.sndState = n.sndState ∧ n'.sndCur = n.sndCur ∧ n'.lastSent = n.lastSent
  queue : g ∉ [.reset, .dequeue, .sender, .enqueue] → n'.q = n.q

theorem Regs.WritesOnly.refl (g : Group) (n : Regs) : WritesOnly g n n := by
  constructor <;> simp

theorem Regs.WritesOnly.of_reset (n n' : Regs) : WritesOnly .reset n n' := by
  constructor <;> simp

theorem Regs.WritesOnly.of_regWrite (n : Regs) (c : Ctrl) (m : BitVec 16) :
    WritesOnly .regWrite n { n with ctrl := c, holdMs := m } := by
  constructor <;> simp

theorem Regs.WritesOnly.of_sample (n : Regs) (l b : Bool) :
    WritesOnly .debounceSample n { n with lvlPrev := l, primed := b } := by
  constructor <;> simp

theorem Regs.WritesOnly.of_debounce (n : Regs) (d : DbState) (c : Nat) (known lvl : Bool) (ts : TiltState)
    (valid tilted : Bool) :
    WritesOnly .debounce n
      { n with
        dbState := d, holdCnt := c, confKnown := known, confLvl := lvl, tiltState := ts, tiltChgValid := valid,
        tiltChgTilted := tilted } := by
  constructor <;> simp

theorem Regs.WritesOnly.of_sender (n : Regs) (d : SndState) (cur last : Report) (q : List Report) :
    WritesOnly .sender n { n with sndState := d, sndCur := cur, lastSent := last, q := q } := by
  constructor <;> simp

theorem Regs.WritesOnly.of_queue {g : Group} (hg : g ∈ [.dequeue, .sender, .enqueue]) (n : Regs) (q : List Report) :
    WritesOnly g n { n with q := q } where
  port _ := ⟨rfl, rfl⟩
  sample _ := ⟨rfl, rfl⟩
  engine _ := ⟨rfl, rfl, rfl, rfl, rfl, rfl, rfl⟩
  sender _ := ⟨rfl, rfl, rfl⟩
  queue h := absurd (List.mem_cons_of_mem _ hg) h

/-- From `s` to `t` only fields of `S'` and signals of the cycle that operations of group `g` own are written. -/
structure State.WritesOnly (g : Group) (s t : State) : Prop where
  rdata : g ≠ .regRead → t.rdata = s.rdata
  report : g ≠ .pack → t.r = s.r
  dequeued : g ∉ [.dequeue, .sender] → t.q1 = s.q1
  regs : Regs.WritesOnly g s.nxt t.nxt

theorem State.WritesOnly.refl (g : Group) (s : State) : s.WritesOnly g s :=
  ⟨fun _ => rfl, fun _ => rfl, fun _ => rfl, .refl g s.nxt⟩

theorem State.WritesOnly.writeNext {g : Group} {f : Regs → Regs} {s : State} (h : Regs.WritesOnly g s.nxt (f s.nxt)) :
    s.WritesOnly g (s.writeNext f) :=
  ⟨fun _ => rfl, fun _ => rfl, fun _ => rfl, h⟩

theorem State.WritesOnly.dequeue {g : Group} (hg : g ∈ [.dequeue, .sender]) (s : State) : s.WritesOnly g s.dequeue where
  rdata _ := rfl
  report _ := rfl
  dequeued h := absurd hg h
  regs := .of_queue (List.mem_append_left [.enqueue] hg) _ _

theorem State.WritesOnly.fetchNew (s : State) : s.WritesOnly .sender s.fetchNew := by
  obtain ⟨-, h⟩ | ⟨_, _, -, h⟩ := s.dequeue.startWrite_cases
  · rw [State.fetchNew, h]; exact .dequeue (by simp) s
  · rw [State.fetchNew, h]; exact ⟨fun _ => rfl, fun _ => rfl, by simp, .of_sender ..⟩

theorem State.WritesOnly.enqueueOnto (v : List Report) (s : State) : s.WritesOnly .enqueue (s.enqueueOnto v) := by
  obtain ⟨-, h⟩ | ⟨_, -, h⟩ := s.enqueueOnto_cases v
  · rw [h]; exact .refl _ s
  · rw [h]; exact .writeNext (.of_queue (by simp) _ _)

theorem State.WritesOnly.runIf {g : Group} {s : State} {f : State → State} (h : s.WritesOnly g (f s)) (c : Bool) :
    ∃ t, s.runIf c f = .next t ∧ s.WritesOnly g t := by
  obtain ⟨-, e⟩ | ⟨-, e⟩ := s.runIf_cases c f
  · exact ⟨_, e, h⟩
  · exact ⟨_, e, .refl g s⟩

/-- Every operation writes only what its group owns. -/
theorem exec_writesOnly (i : Instr) (s : State) : ∃ t, exec i s = .next t ∧ s.WritesOnly (group i) t := by
  cases i with
  | reset => exact ⟨_, rfl, .writeNext (.of_reset ..)⟩
  | cfgRead idx => exact ⟨_, rfl, nofun, fun _ => rfl, fun _ => rfl, .refl _ _⟩
  | cfgWrCtrl | cfgWrHold => exact ⟨_, rfl, .writeNext (.of_regWrite ..)⟩
  | cfgWrStatus | cfgWrParam | cfgWrLastLo | cfgWrLastHi | cfgWrRsvd6 | cfgWrRsvd7 => exact ⟨_, rfl, .refl _ s⟩
  | dbSample => exact ⟨_, rfl, .writeNext (.of_sample ..)⟩
  | dbQuiet l => exact State.WritesOnly.runIf (f := State.noDispatch) (.writeNext (.of_debounce ..)) _
  | dbEdgeArm l => exact State.WritesOnly.runIf (f := State.armTimer) (.writeNext (.of_debounce ..)) _
  | dbEdgeImm l => exact State.WritesOnly.runIf (f := State.dispatchLevel l) (.writeNext (.of_debounce ..)) _
  | dbCount l => exact State.WritesOnly.runIf (f := State.countDown) (.writeNext (.of_debounce ..)) _
  | dbExpireConfirm l =>
    exact State.WritesOnly.runIf (f := State.engineIdle ∘ State.dispatchLevel l)
      ⟨fun _ => rfl, fun _ => rfl, fun _ => rfl, .of_debounce ..⟩ _
  | dbExpireDiscard l =>
    exact State.WritesOnly.runIf (f := State.engineIdle ∘ State.noDispatch)
      ⟨fun _ => rfl, fun _ => rfl, fun _ => rfl, .of_debounce ..⟩ _
  | pack g => exact ⟨_, rfl, fun _ => rfl, nofun, fun _ => rfl, .refl _ _⟩
  | enq | enqPurge => exact State.WritesOnly.runIf (.enqueueOnto _ s) _
  | deq | sndFetchDup => exact State.WritesOnly.runIf (.dequeue (by simp [group]) s) _
  | sndFetchNew => exact State.WritesOnly.runIf (.fetchNew s) _
  | dbEdgeMasked | sndEmpty | sndWait | sndDoneIgnored => exact State.WritesOnly.runIf (f := id) (.refl _ s) _
  | sndDoneOk =>
    exact State.WritesOnly.runIf (f := State.senderIdle ∘ State.recordSent)
      ⟨fun _ => rfl, fun _ => rfl, fun _ => rfl, .of_sender ..⟩ _
  | sndDoneFail => exact State.WritesOnly.runIf (f := State.senderIdle) (.writeNext (.of_sender ..)) _

/-- Settles O14: the frame that no operation touches, and what the operation's group owns. -/
theorem operationsOwnTheirFields : Obligations.OperationsOwnTheirFields := by
  intro i s
  obtain ⟨t, ht, hframe⟩ := exec_sameFrame i s
  obtain ⟨u, hu, hown⟩ := exec_writesOnly i s
  cases hu.symm.trans ht
  exact ⟨t, ht, hframe.params, hframe.now, hframe.stim, hframe.cycle, hown.rdata, hown.report, hown.dequeued,
    hown.regs.port, hown.regs.sample, hown.regs.engine, hown.regs.sender, hown.regs.queue⟩

/-! ### A cycle in which the engine or the sender has nothing to do -/

theorem refStep_of_noReset {w : Stim} (hrst : w.rst = false) (p : Params) (free : Bool) (S : Regs) :
    refStep p free S w =
      { refSender S w (refDebounce p S w (refRegisterPort w S)) with
        q := refEnqueue p w (packReport S free w.pad) (refDequeue S) } := by
  simp [refStep, hrst]

/-- An engine in Idle that sees no edge stores the level and ends the pulse (41_debounce.md R130, R139). -/
theorem EngineOutcome.eq_of_quiet {p : Params} {S n n' : Regs} {l : Bool} (h : EngineOutcome p S l n n')
    (hidle : S.dbState = .idle) (hedge : edge S l = false) :
    n' = { n with lvlPrev := l, primed := true, tiltChgValid := false } := by
  cases h with
  | quiet => rfl
  | arm _ he | dispatchNow _ he => rw [hedge] at he; cases he
  | count hd | confirm hd | discard hd => rw [hidle] at hd; cases hd

/-- A free sender with nothing queued writes no field (44_sender.md R206). -/
theorem SenderOutcome.eq_of_empty {S n n' : Regs} {done ok : Bool} {q : List Report}
    (h : SenderOutcome S done ok n n' q) (hfree : S.sndState = .idle) (hq : S.q = []) : n' = n ∧ q = [] := by
  cases h with
  | empty => exact ⟨rfl, rfl⟩
  | duplicate _ _ hcons | fetch _ _ _ hcons => rw [hq] at hcons; cases hcons
  | wait hbusy | doneOk hbusy | doneFail hbusy => rw [hfree] at hbusy; cases hbusy

/-- While the transport does not complete, a busy sender writes no field and takes nothing off the queue (R202). -/
theorem SenderOutcome.eq_of_wait {S n n' : Regs} {done ok : Bool} {q : List Report}
    (h : SenderOutcome S done ok n n' q) (hbusy : S.sndState = .tx) (hdone : done = false) : n' = n ∧ q = S.q := by
  cases h with
  | wait => exact ⟨rfl, rfl⟩
  | empty hfree | duplicate _ hfree | fetch _ _ hfree => rw [hbusy] at hfree; cases hfree
  | doneOk _ hd | doneFail _ hd => rw [hdone] at hd; cases hd

/-! ### The waiting sender -/

/-- One cycle without RST and TX_DONE, the sender in TX. -/
theorem refStep_of_wait {p : Params} {S : Regs} {w : Stim} (hrst : w.rst = false) (hdone : w.txDone = false)
    (hbusy : S.sndState = .tx) (free : Bool) :
    (refStep p free S w).sndState = .tx ∧ (refStep p free S w).sndCur = S.sndCur ∧
      (refStep p free S w).lastSent = S.lastSent ∧
      (refStep p free S w).q = refEnqueue p w (packReport S free w.pad) S.q := by
  obtain ⟨c, m, hport⟩ := refRegisterPort_eq w S
  obtain ⟨hsender, hdequeue⟩ :=
    (refSender_outcome S w (refDebounce p S w { S with ctrl := c, holdMs := m })).eq_of_wait hbusy hdone
  obtain ⟨-, hstate, hcur, hlast⟩ := (refDebounce_outcome p S w { S with ctrl := c, holdMs := m }).frame
  rw [refStep_of_noReset hrst, hport, hsender, hdequeue]
  exact ⟨hstate.trans hbusy, hcur, hlast, rfl⟩

/-- Settles O52, by induction on the number of cycles. The capacity rules do not read CLK_PER_MS, about which the
statement assumes nothing. -/
theorem senderWaitsForTheTransport : Obligations.SenderWaitsForTheTransport := by
  intro n
  induction n with
  | zero => exact fun s hbusy _ _ _ hq => ⟨s, rfl, hbusy, rfl, rfl, hq⟩
  | succ n ih =>
    intro s hbusy hlen hwords hcap hq
    obtain ⟨w, ws, hstim⟩ := List.exists_cons_of_length_pos (Nat.zero_lt_of_lt hlen)
    rw [hstim] at hlen hwords
    obtain ⟨hrst, hdone⟩ := hwords 0 n.succ_pos
    obtain ⟨u, hu, hparams, htail, hnow⟩ := step_eq_reference_and_consumes s
    rw [s.word_of_stim w ws hstim] at hnow
    obtain ⟨hstate, hcur, hlast, hqueue⟩ := refStep_of_wait (p := s.params) (w := Stim.ofWord w) hrst hdone hbusy
      (Config.tiltBitOfCode11 s.cycle)
    rw [← hnow] at hstate hcur hlast hqueue
    have hroom : u.now.q.length ≤ s.params.cap.toNat := by
      rw [hqueue]
      exact length_refEnqueue_le (p := { s.params with clkPerMs := 1 }) ⟨hcap, le_rfl⟩ _ _ hq
    have hstim' : u.stim = ws := by rw [htail, hstim]; rfl
    obtain ⟨t, ht, htx, htcur, htlast, htq⟩ := ih u hstate (by rw [hstim']; exact Nat.le_of_succ_le_succ hlen)
      (fun k hk => by rw [hstim']; exact hwords (k + 1) (Nat.succ_lt_succ hk)) (hparams ▸ hcap) (hparams ▸ hroom)
    refine ⟨t, ?_, htx, htcur.trans hcur, htlast.trans hlast, hparams ▸ htq⟩
    rw [runSteps, hu]; exact ht

/-! ### Quiescence -/

/-- The fields of a word in which no bit but TILT_IN is set. -/
theorem ofWord_of_onlyTiltIn {w : Word} (h : w &&& ~~~2#128 = 0#128) :
    Stim.ofWord w = { Stim.zero with tiltIn := w.getLsbD 1 } := by
  have hw : w = if w.getLsbD 1 then 2#128 else 0#128 := by
    calc w = w &&& 2#128 ||| w &&& ~~~2#128 := by
          rw [← BitVec.and_or_distrib_left, show 2#128 ||| ~~~2#128 = BitVec.allOnes 128 by decide, BitVec.and_allOnes]
      _ = w &&& BitVec.twoPow 128 1 := by rw [h, BitVec.or_zero]; rfl
      _ = if w.getLsbD 1 then 2#128 else 0#128 := BitVec.and_twoPow w 1
  cases hl : w.getLsbD 1 <;> rw [hl] at hw <;> rw [hw] <;> rfl

/-- A quiescent state stays so in a cycle that only samples a level, without an edge: it stores the level. -/
theorem refStep_of_quiescent {S : Regs} (h : S.Quiescent) {l : Bool} (hedge : edge S l = false) (p : Params)
    (free : Bool) :
    refStep p free S { Stim.zero with tiltIn := l } = { S with lvlPrev := l, primed := true } := by
  obtain ⟨hidle, hfree, hlen, hpulse⟩ := h
  have hq := List.eq_nil_of_length_eq_zero hlen
  have hengine := (refDebounce_outcome p S { Stim.zero with tiltIn := l } S).eq_of_quiet hidle hedge
  obtain ⟨hsender, hdequeue⟩ := (refSender_outcome S { Stim.zero with tiltIn := l }
    (refDebounce p S { Stim.zero with tiltIn := l } S)).eq_of_empty hfree hq
  have hport : refRegisterPort { Stim.zero with tiltIn := l } S = S := rfl
  rw [refStep_of_noReset rfl, hport, hsender, hdequeue, hengine, ← hpulse, ← hq]
  rfl

theorem step_of_quiescent {s : State} (h : s.now.Quiescent) (hword : s.word &&& ~~~2#128 = 0#128)
    (hedge : edge s.now (s.word.getLsbD 1) = false) :
    ∃ t, step s = .next t ∧ t.now = { s.now with lvlPrev := s.word.getLsbD 1, primed := true } := by
  obtain ⟨t, ht, -, -, hnow⟩ := step_eq_reference s
  rw [ofWord_of_onlyTiltIn hword, refStep_of_quiescent h hedge] at hnow
  exact ⟨t, ht, hnow⟩

/-- Settles O54: the level of the state before is no edge, and storing it again changes nothing. -/
theorem quiescentStateStays : Obligations.QuiescentStateStays := by
  intro s hquiet hword hlevel
  obtain ⟨t, ht, hnow⟩ := step_of_quiescent hquiet hword (by rw [hlevel]; simp [edge])
  exact ⟨t, ht, by rw [hnow, hlevel]⟩

/-- Refutes O55: right after reset the first sample, of level 1, is no edge, but DB_SAMPLE stores it (41_debounce.md R130;
notes/assumptions/17.md). -/
theorem not_unprimedQuiescentStateKeepsItsLevel : ¬ Obligations.UnprimedQuiescentStateKeepsItsLevel := by
  intro h
  have hquiet : (State.reset.placeWord 2#128).now.Quiescent := by decide
  obtain ⟨t, ht, hkept⟩ := h (State.reset.placeWord 2#128) hquiet (by decide) rfl
  obtain ⟨u, hu, hstored⟩ := step_of_quiescent hquiet (by decide) rfl
  cases hu.symm.trans ht
  have hlevel : true = false := congrArg Regs.lvlPrev (hstored.symm.trans hkept)
  cases hlevel

end Sys2Proof.Machine

namespace Sys2Proof

/-! ### The words that select the engine's operations -/

/-- The engine's rows all have the pattern of a word without RST, and their operand is TILT_IN (30_encoding.md R92). -/
theorem mem_decode_of_mem_engineOps {i : Instr} {l : Bool} (hi : i ∈ engineOps l) (w : Word) :
    i ∈ decode w ↔ w.getLsbD 0 = false ∧ l = w.getLsbD 1 := by
  obtain ⟨hpattern, hoperand⟩ : i.pattern = ⟨0x001, 0x000⟩ ∧ (i ∈ (Stim.ofWord w).operations ↔ l = w.getLsbD 1) := by
    simp only [engineOps, List.mem_cons, List.not_mem_nil, or_false] at hi
    obtain rfl | rfl | rfl | rfl | rfl | rfl | rfl | rfl := hi
    all_goals exact ⟨rfl, by simp [Stim.operations, Stim.ofWord]⟩
  rw [mem_decode, hpattern, accepts_noReset, hoperand, Bool.not_eq_true', and_comm]

end Sys2Proof

namespace Sys2Proof.Machine

/-! ### The engine's operations, one by one (41_debounce.md R130 to R139) -/

theorem edge_eq_true_iff (S : Regs) (l : Bool) : edge S l = true ↔ S.primed = true ∧ l ≠ S.lvlPrev := by
  simp [edge]

theorem edge_eq_false_iff (S : Regs) (l : Bool) : edge S l = false ↔ S.primed = false ∨ l = S.lvlPrev := by
  cases h : S.primed <;> simp [edge, h]

theorem differs_eq_false_iff (S : Regs) (l : Bool) : differs S l = false ↔ S.confKnown = true ∧ S.confLvl = l := by
  simp [differs]

/-- Settles O23: its row asks for no RST alone, and its meaning has no condition. -/
theorem sampleStoresTheLevel : Obligations.SampleStoresTheLevel :=
  ⟨fun w _ => mem_decode_of_mem_engineOps (by simp [engineOps]) w, fun _ => ⟨rfl, rfl⟩, edge_eq_true_iff,
    fun _ _ => rfl⟩

/-- Settles O24: without an edge in Idle its condition holds, and it writes the pulse alone. -/
theorem quietOnlyEndsThePulse : Obligations.QuietOnlyEndsThePulse := by
  refine ⟨fun w _ => mem_decode_of_mem_engineOps (by simp [engineOps]) w, fun l s hidle hsame => ?_⟩
  have hedge := (edge_eq_false_iff s.now l).mpr hsame
  have hrun : mayQuiet l s = true := by simp [mayQuiet, isIdle, hidle, hedge]
  exact congrArg (State.runIf · State.noDispatch s) hrun

/-- Settles O25: with an edge in Idle and `1 ≤ N` its condition holds, and it arms the timer. -/
theorem edgeArmsTheTimer : Obligations.EdgeArmsTheTimer := by
  refine ⟨fun w _ => mem_decode_of_mem_engineOps (by simp [engineOps]) w, fun l s => ?_⟩
  intro _ hidle hprimed hlvl hlen
  have hedge := (edge_eq_true_iff s.now l).mpr ⟨hprimed, hlvl⟩
  have hpos : 1 ≤ holdLen s.params s.now := hlen
  have hrun : mayArm l s = true := by simp [mayArm, isIdle, hidle, hedge, hpos]
  exact congrArg (State.runIf · State.armTimer s) hrun

/-- Settles O26: with an edge in Idle and `N = 0` its condition holds, and it dispatches. -/
theorem edgeWithoutHoldDispatches : Obligations.EdgeWithoutHoldDispatches := by
  refine ⟨fun w _ => mem_decode_of_mem_engineOps (by simp [engineOps]) w, fun l s hidle hprimed hlvl hlen => ?_⟩
  have hedge := (edge_eq_true_iff s.now l).mpr ⟨hprimed, hlvl⟩
  have hzero : holdLen s.params s.now = 0 := hlen
  have hrun : mayDispatchNow l s = true := by simp [mayDispatchNow, isIdle, hidle, hedge, hzero]
  exact congrArg (State.runIf · (State.dispatchLevel l) s) hrun

/-- Settles O27: whether or not its condition holds, it writes nothing. -/
theorem edgeWhileHoldingIsMasked : Obligations.EdgeWhileHoldingIsMasked := by
  refine ⟨fun w _ => mem_decode_of_mem_engineOps (by simp [engineOps]) w, fun l s _ _ _ => ?_⟩
  rw [exec_dbEdgeMasked, State.runIf_id]

/-- Settles O28: with a timer that is not 0 in Holding its condition holds, and it takes one off. -/
theorem holdTimerCountsDown : Obligations.HoldTimerCountsDown := by
  refine ⟨fun w _ => mem_decode_of_mem_engineOps (by simp [engineOps]) w, fun l s hholding hcnt => ?_⟩
  have hrun : mayCount s = true := by simp [mayCount, isHolding, hholding, hcnt]
  exact congrArg (State.runIf · State.countDown s) hrun

/-- Settles O29: on expiry with a level that differs its condition holds, and it dispatches and returns to Idle. -/
theorem expiryConfirmsAChange : Obligations.ExpiryConfirmsAChange := by
  refine ⟨fun w _ => mem_decode_of_mem_engineOps (by simp [engineOps]) w, fun l s hholding hcnt hnew => ?_⟩
  have hdiff := (differs_eq_true_iff s.now l).mpr hnew
  have hrun : mayConfirm l s = true := by simp [mayConfirm, isHolding, hholding, hcnt, hdiff]
  exact congrArg (State.runIf · (State.engineIdle ∘ State.dispatchLevel l) s) hrun

/-- Settles O30: on expiry with the confirmed level its condition holds, and it returns to Idle without a dispatch. -/
theorem expiryDiscardsABounce : Obligations.ExpiryDiscardsABounce := by
  refine ⟨fun w _ => mem_decode_of_mem_engineOps (by simp [engineOps]) w, fun l s hholding hcnt hknown hlvl => ?_⟩
  have hdiff := (differs_eq_false_iff s.now l).mpr ⟨hknown, hlvl⟩
  have hrun : mayDiscard l s = true := by simp [mayDiscard, isHolding, hholding, hcnt, hdiff]
  exact congrArg (State.runIf · (State.engineIdle ∘ State.noDispatch) s) hrun

/-! ### A step as the engine sees it -/

/-- `n` has the engine state, the confirmed level and the TiltState of `S`: no engine operation has written it yet. -/
structure Regs.SameEngine (S n : Regs) : Prop where
  dbState : n.dbState = S.dbState
  confKnown : n.confKnown = S.confKnown
  confLvl : n.confLvl = S.confLvl
  tiltState : n.tiltState = S.tiltState

theorem SenderOutcome.eq_writeSender {S n n' : Regs} {done ok : Bool} {q : List Report}
    (h : SenderOutcome S done ok n n' q) :
    ∃ d cur last, n' = { n with sndState := d, sndCur := cur, lastSent := last } := by
  cases h <;> exact ⟨_, _, _, rfl⟩

/-- The engine neither reads nor writes what the sender and the queue write after it (40_cycle.md R112). -/
theorem EngineOutcome.writeSender {p : Params} {S n n' : Regs} {l : Bool} (h : EngineOutcome p S l n n')
    (d : SndState) (cur last : Report) (q : List Report) :
    EngineOutcome p S l { n with sndState := d, sndCur := cur, lastSent := last, q := q }
      { n' with sndState := d, sndCur := cur, lastSent := last, q := q } := by
  cases h with
  | quiet hidle hedge => exact .quiet hidle hedge
  | arm hidle hedge hlen => exact .arm hidle hedge hlen
  | dispatchNow hidle hedge hlen => exact .dispatchNow hidle hedge hlen
  | count hholding hcnt => exact .count hholding hcnt
  | confirm hholding hcnt hdiff => exact .confirm hholding hcnt hdiff
  | discard hholding hcnt hdiff => exact .discard hholding hcnt hdiff

/-- The fields after a whole cycle without RST are an outcome of the engine, from fields that the other parts have
written. -/
theorem refStep_engineOutcome {w : Stim} (hrst : w.rst = false) (p : Params) (free : Bool) (S : Regs) :
    ∃ n, S.SameEngine n ∧ EngineOutcome p S w.tiltIn n (refStep p free S w) := by
  obtain ⟨c, m, hport⟩ := refRegisterPort_eq w S
  obtain ⟨d, cur, last, hsender⟩ :=
    (refSender_outcome S w (refDebounce p S w { S with ctrl := c, holdMs := m })).eq_writeSender
  have hengine := refDebounce_outcome p S w { S with ctrl := c, holdMs := m }
  rw [refStep_of_noReset hrst, hport, hsender]
  refine ⟨_, ?_, hengine.writeSender d cur last (refEnqueue p w (packReport S free w.pad) (refDequeue S))⟩
  exact ⟨rfl, rfl, rfl, rfl⟩

theorem step_engineOutcome {s : State} (hrst : s.word.getLsbD 0 = false) :
    ∃ t n, step s = .next t ∧ t.stim = s.stim.tail ∧ s.now.SameEngine n ∧
      EngineOutcome s.params s.now (s.word.getLsbD 1) n t.now := by
  obtain ⟨t, ht, -, hstim, hnow⟩ := step_eq_reference_and_consumes s
  obtain ⟨n, hn, hengine⟩ := refStep_engineOutcome (w := Stim.ofWord s.word) hrst s.params
    (Config.tiltBitOfCode11 s.cycle) s.now
  exact ⟨t, n, ht, hstim, hn, hnow ▸ hengine⟩

/-! ### Hold time 0 -/

/-- In Idle with `N = 0` the engine stays in Idle, and it dispatches exactly on an edge (41_debounce.md R142). -/
theorem EngineOutcome.dispatch_iff_edge {p : Params} {S n n' : Regs} {l : Bool} (h : EngineOutcome p S l n n')
    (hn : S.SameEngine n) (hidle : S.dbState = .idle) (hlen : holdLen p S = 0) :
    n'.dbState = .idle ∧ (n'.tiltChgValid = true ↔ edge S l = true) ∧
      (edge S l = true → n'.confKnown = true ∧ n'.confLvl = l) := by
  cases h with
  | quiet _ hedge => simp [hedge, hn.dbState.trans hidle]
  | dispatchNow _ hedge => simp [refDispatch, hedge, hn.dbState.trans hidle]
  | arm _ _ hpos => omega
  | count hd | confirm hd | discard hd => rw [hidle] at hd; cases hd

/-- Settles O32: the dispatch of a step is the engine's, and there it is an edge that decides. -/
theorem zeroHoldDispatchesEveryEdge : Obligations.ZeroHoldDispatchesEveryEdge := by
  intro s hrst hidle hzero
  obtain ⟨t, n, ht, -, hn, hengine⟩ := step_engineOutcome hrst
  have hlen : holdLen s.params s.now = 0 := by simp [holdLen, hzero]
  have hdispatch := hengine.dispatch_iff_edge hn hidle hlen
  rw [edge_eq_true_iff] at hdispatch
  exact ⟨t, ht, hdispatch⟩

/-! ### The hold window -/

/-- Within a hold window that an edge in `S` has started, `c` counts before its end: nothing is dispatched since `S`. -/
structure Regs.HoldingSince (S : Regs) (c : Nat) (n : Regs) : Prop where
  holding : n.dbState = .holding
  counter : n.holdCnt = c
  noPulse : n.tiltChgValid = false
  tiltState : n.tiltState = S.tiltState
  confKnown : n.confKnown = S.confKnown
  confLvl : n.confLvl = S.confLvl

/-- An edge in Idle starts a window (41_debounce.md R132). -/
theorem EngineOutcome.holdingSince_of_edge {p : Params} {S n n' : Regs} {l : Bool} (h : EngineOutcome p S l n n')
    (hn : S.SameEngine n) (hidle : S.dbState = .idle) (hedge : edge S l = true) (hlen : 1 ≤ holdLen p S) :
    S.HoldingSince (holdLen p S - 1) n' := by
  cases h with
  | arm => exact ⟨rfl, rfl, rfl, hn.tiltState, hn.confKnown, hn.confLvl⟩
  | quiet _ he => rw [hedge] at he; cases he
  | dispatchNow _ _ hzero => omega
  | count hd | confirm hd | discard hd => rw [hidle] at hd; cases hd

/-- Before its end a window goes on whatever the level is (41_debounce.md R133, R135). -/
theorem EngineOutcome.holdingSince_of_count {p : Params} {S₀ S n n' : Regs} {l : Bool} {c : Nat}
    (h : EngineOutcome p S l n n') (hn : S.SameEngine n) (hS : S₀.HoldingSince (c + 1) S) : S₀.HoldingSince c n' := by
  have hcounter := hS.counter
  cases h with
  | count =>
    exact ⟨hn.dbState.trans hS.holding, by simp [hcounter], rfl, hn.tiltState.trans hS.tiltState,
      hn.confKnown.trans hS.confKnown, hn.confLvl.trans hS.confLvl⟩
  | confirm _ hzero | discard _ hzero => omega
  | quiet hd | arm hd | dispatchNow hd => rw [hS.holding] at hd; cases hd

/-- What one decision about the level `l` leaves: it is dispatched with the mapping `inv` to tilted if it differs from the
level confirmed in `S`, and else nothing is (41_debounce.md R136, R137). -/
def Regs.DecidesOn (S : Regs) (l inv : Bool) (n : Regs) : Prop :=
  if S.confKnown = false ∨ S.confLvl ≠ l then
    n.tiltChgValid = true ∧ n.confKnown = true ∧ n.confLvl = l ∧
      n.tiltState = (if (l ^^ inv) = true then .tilted else .flat) ∧ n.tiltChgTilted = (l ^^ inv)
  else
    n.tiltChgValid = false ∧ n.confKnown = S.confKnown ∧ n.confLvl = S.confLvl ∧ n.tiltState = S.tiltState

/-- A window ends in one decision. -/
theorem EngineOutcome.decidesOn_of_expiry {p : Params} {S₀ S n n' : Regs} {l : Bool} (h : EngineOutcome p S l n n')
    (hn : S.SameEngine n) (hS : S₀.HoldingSince 0 S) :
    n'.dbState = .idle ∧ S₀.DecidesOn l S.ctrl.tiltLvlInv n' := by
  rw [Regs.DecidesOn, ← hS.confKnown, ← hS.confLvl, ← hS.tiltState]
  cases h with
  | confirm _ _ hdiff => rw [if_pos ((differs_eq_true_iff S l).mp hdiff)]; exact ⟨rfl, rfl, rfl, rfl, rfl, rfl⟩
  | discard _ _ hdiff =>
    rw [if_neg fun hnew => Bool.eq_false_iff.mp hdiff ((differs_eq_true_iff S l).mpr hnew)]
    exact ⟨rfl, rfl, hn.confKnown, hn.confLvl, hn.tiltState⟩
  | count _ hcnt => exact absurd hS.counter hcnt
  | quiet hd | arm hd | dispatchNow hd => rw [hS.holding] at hd; cases hd

/-! ### The cycles of a window -/

theorem runSteps_succ_of_runSteps {k : Nat} {s t : State} (h : runSteps k s = .next t) :
    runSteps (k + 1) s = step t := by
  induction k generalizing s with
  | zero =>
    cases h
    obtain ⟨u, hu, -⟩ := everyStepAnswersANextState t
    simp only [runSteps, hu]
  | succ k ih =>
    obtain ⟨u, hu, -⟩ := everyStepAnswersANextState s
    simp only [runSteps, hu] at h ⊢
    exact ih h

theorem State.word_of_stim_eq_drop {t : State} {words : List Word} {k : Nat} (h : t.stim = words.drop k)
    (hk : k < words.length) : t.word = words.getD k 0 := by
  rw [List.drop_eq_getElem_cons hk] at h
  rw [t.word_of_stim _ _ h, List.getD_eq_getElem _ _ hk]

/-- An edge in Idle with `1 ≤ N` holds the engine for `N` cycles, in which the timer counts down exactly (R141). -/
theorem runSteps_holdingSince {s : State} {N : Nat} (hN : N = holdLen s.params s.now) (hlen : 1 ≤ N)
    (hidle : s.now.dbState = .idle) (hedge : edge s.now ((s.stim.getD 0 0).getLsbD 1) = true) (hstim : N ≤ s.stim.length)
    (hrst : ∀ k < N, (s.stim.getD k 0).getLsbD 0 = false) {k : Nat} (hk : k < N) :
    ∃ t, runSteps (k + 1) s = .next t ∧ t.stim = s.stim.drop (k + 1) ∧ s.now.HoldingSince (N - 1 - k) t.now := by
  induction k with
  | zero =>
    have hword := State.word_of_stim_eq_drop (k := 0) (List.drop_zero (l := s.stim)).symm (hlen.trans hstim)
    obtain ⟨t, n, ht, htail, hn, hengine⟩ := step_engineOutcome (hword ▸ hrst 0 hk)
    refine ⟨t, (runSteps_succ_of_runSteps rfl).trans ht, by rw [htail, List.drop_one], ?_⟩
    rw [hN]
    exact hengine.holdingSince_of_edge hn hidle (hword ▸ hedge) (hN ▸ hlen)
  | succ k ih =>
    obtain ⟨u, hu, hustim, hholding⟩ := ih (Nat.lt_of_succ_lt hk)
    have hword := State.word_of_stim_eq_drop hustim (hk.trans_le hstim)
    obtain ⟨t, n, ht, htail, hn, hengine⟩ := step_engineOutcome (hword ▸ hrst (k + 1) hk)
    refine ⟨t, (runSteps_succ_of_runSteps hu).trans ht, by rw [htail, hustim, List.tail_drop], ?_⟩
    rw [show N - 1 - k = N - 1 - (k + 1) + 1 by omega] at hholding
    exact hengine.holdingSince_of_count hn hholding

/-- Settles O31: the window counts down to 0 through its last cycle, and the cycle after that makes the one decision. -/
theorem holdWindowEndsInOneDecision : Obligations.HoldWindowEndsInOneDecision := by
  intro s n hN hlen hidle hprimed hstim hrst hlvl
  have hedge := (edge_eq_true_iff s.now _).mpr ⟨hprimed, hlvl⟩
  have hwindow {k : Nat} := runSteps_holdingSince hN hlen hidle hedge hstim.le (fun k hk => hrst k hk.le) (k := k)
  refine ⟨fun k hk => ?_, ?_⟩
  · obtain ⟨t, ht, -, hholding⟩ := hwindow hk
    exact ⟨t, ht, hholding.holding, hholding.counter, hholding.noPulse, hholding.tiltState, hholding.confKnown,
      hholding.confLvl⟩
  · obtain ⟨u, hu, hustim, hholding⟩ := hwindow (Nat.sub_lt hlen Nat.one_pos)
    rw [Nat.sub_self] at hholding
    rw [Nat.sub_add_cancel hlen] at hu hustim
    have hword := State.word_of_stim_eq_drop hustim hstim
    obtain ⟨t, m, ht, -, hm, hengine⟩ := step_engineOutcome (hword ▸ hrst n le_rfl)
    obtain ⟨hdone, hdecision⟩ := hengine.decidesOn_of_expiry hm hholding
    exact ⟨u, t, hu, (runSteps_succ_of_runSteps hu).trans ht, hdone, hword ▸ hdecision⟩

end Sys2Proof.Machine

namespace Sys2Proof

/-! ### The words that select PACK -/

/-- PACK's row asks for a request without RST, and its operand is the word's GamepadState (30_encoding.md R92). -/
theorem pack_mem_decode_iff (w : Word) (g : Gamepad) :
    .pack g ∈ decode w ↔ w.getLsbD 0 = false ∧ w.getLsbD 2 = true ∧ g = (Stim.ofWord w).pad := by
  have hoperand : .pack g ∈ (Stim.ofWord w).operations ↔ g = (Stim.ofWord w).pad := by simp [Stim.operations]
  rw [mem_decode, hoperand, Instr.pattern, accepts_request, Bool.and_eq_true, Bool.not_eq_true', and_comm, and_assoc]

theorem eq_pad_ofWord_iff (w : Word) (g : Gamepad) : g = (Stim.ofWord w).pad ↔
    g.btn = w.extractLsb' 16 16 ∧ g.ax = w.extractLsb' 32 8 ∧ g.ay = w.extractLsb' 40 8 ∧ g.aux = w.extractLsb' 48 8 := by
  cases g
  simp [Stim.ofWord]

end Sys2Proof

namespace Sys2Proof.Machine

/-! ### The tilt bit (42_packer.md R160) -/

theorem tiltBit_tilted (c : Ctrl) (free : Bool) : tiltBit .tilted c free = c.tiltBitPol := by
  simp [tiltBit]

theorem tiltBit_flat (c : Ctrl) (free : Bool) : tiltBit .flat c free = !c.tiltBitPol := by
  simp [tiltBit]

theorem tiltBit_unknown (c : Ctrl) (free : Bool) :
    tiltBit .unknown c free = (!c.unkAsTilted ^^ c.tiltBitPol) := rfl

/-! ### Composition and inversion, bit by bit (42_packer.md R161, R162) -/

theorem getLsbD_bit_shiftLeft (b : Bool) (p : Nat) {i : Nat} (hi : i < 16) :
    ((bit b).setWidth 16 <<< p).getLsbD i = (decide (i = p) && b) := by
  obtain hlt | heq | hgt := Nat.lt_trichotomy i p
  · simp [hlt, hlt.ne]
  · simp [bit, heq, heq ▸ hi]
  · simp [bit, hi, hgt.ne', hgt.not_gt, Nat.sub_ne_zero_of_lt hgt]

theorem getLsbD_one_shiftLeft (p : Nat) {i : Nat} (hi : i < 16) : (1#16 <<< p).getLsbD i = decide (i = p) :=
  (getLsbD_bit_shiftLeft true p hi).trans (Bool.and_true _)

/-- The mask clears the one bit that the shifted tilt bit then sets. -/
theorem getLsbD_compose (btn : BitVec 16) (tb : Bool) (c : Ctrl) {i : Nat} (hi : i < 16) :
    (compose btn tb c).getLsbD i = if i = c.tiltBit.toNat then tb else btn.getLsbD i := by
  rw [compose, BitVec.getLsbD_or, BitVec.getLsbD_and, BitVec.getLsbD_not, getLsbD_one_shiftLeft _ hi,
    getLsbD_bit_shiftLeft _ _ hi]
  by_cases h : i = c.tiltBit.toNat <;> simp [h, hi]

/-- An active tilt bit is added to the buttons. -/
theorem compose_true (btn : BitVec 16) (c : Ctrl) : compose btn true c = btn ||| 1#16 <<< c.tiltBit.toNat := by
  apply BitVec.eq_of_getLsbD_eq
  intro i hi
  rw [getLsbD_compose _ _ _ hi, BitVec.getLsbD_or, getLsbD_one_shiftLeft _ hi]
  by_cases h : i = c.tiltBit.toNat <;> simp [h]

theorem getLsbD_emit (x : BitVec 16) (c : Ctrl) {i : Nat} (hi : i < 16) :
    (emit x c).getLsbD i = (x.getLsbD i ^^ c.invEn) := by
  cases h : c.invEn <;> simp [emit, h, hi]

/-! ### The fields of a serialised report (42_packer.md R163) -/

theorem reportByte_serialise (b : BitVec 16) (ax ay aux : BitVec 8) :
    reportByte (serialise b ax ay aux) 0 = b.extractLsb' 0 8 ∧ reportByte (serialise b ax ay aux) 1 = b.extractLsb' 8 8 ∧
      reportByte (serialise b ax ay aux) 2 = ax ∧ reportByte (serialise b ax ay aux) 3 = ay ∧
      reportByte (serialise b ax ay aux) 4 = aux := by
  simp (disch := omega) only [reportByte, serialise, BitVec.extractLsb'_append_eq_of_le,
    BitVec.extractLsb'_append_eq_of_add_le, BitVec.extractLsb'_eq_self, Nat.reduceSub, Nat.reduceMul, and_self]

/-- The button field is the two low bytes, and they are the two bytes of `b`. -/
theorem extract_buttons_serialise (b : BitVec 16) (ax ay aux : BitVec 8) :
    (serialise b ax ay aux).extractLsb' 0 16 = b := by
  obtain ⟨hlow, hhigh, -⟩ := reportByte_serialise b ax ay aux
  calc (serialise b ax ay aux).extractLsb' 0 16
      = reportByte (serialise b ax ay aux) 1 ++ reportByte (serialise b ax ay aux) 0 :=
        (BitVec.extractLsb'_append_extractLsb'_eq_extractLsb' (start₁ := 0) (len₁ := 8) (len₂ := 8) rfl).symm
    _ = b.extractLsb' 8 8 ++ b.extractLsb' 0 8 := by rw [hlow, hhigh]
    _ = b := BitVec.extractLsb'_append_extractLsb' (w := 8)

/-! ### The packed report (42_packer.md R164) -/

theorem extract_buttons_packReport (S : Regs) (free : Bool) (g : Gamepad) : (packReport S free g).extractLsb' 0 16 =
    emit (compose g.btn (tiltBit S.tiltState S.ctrl free) S.ctrl) S.ctrl :=
  extract_buttons_serialise _ _ _ _

/-- A bit of the button field that PACK emits. -/
theorem getLsbD_buttons_packReport (S : Regs) (free : Bool) (g : Gamepad) {i : Nat} (hi : i < 16) :
    ((packReport S free g).extractLsb' 0 16).getLsbD i =
      ((if i = S.ctrl.tiltBit.toNat then tiltBit S.tiltState S.ctrl free else g.btn.getLsbD i) ^^ S.ctrl.invEn) := by
  rw [extract_buttons_packReport, getLsbD_emit _ _ hi, getLsbD_compose _ _ _ hi]

/-- Settles O35, by the bits of the masked buttons and of the shifted tilt bit. -/
theorem composeReplacesOnlyTheTiltBit : Obligations.ComposeReplacesOnlyTheTiltBit :=
  fun btn tb c _ hi => getLsbD_compose btn tb c hi

/-- Settles O36: the two inversions of R166 compose at the tilt bit's position, and elsewhere only INV_EN's acts. -/
theorem emittedBitsFollowThePolarities : Obligations.EmittedBitsFollowThePolarities := by
  intro S free g
  have htilt := getLsbD_buttons_packReport S free g S.ctrl.tiltBit.isLt
  rw [if_pos rfl] at htilt
  refine ⟨fun hstate => ?_, fun hstate => ?_, fun i hi hne => ?_⟩
  · rw [htilt, hstate, tiltBit_tilted]
  · rw [htilt, hstate, tiltBit_flat, Bool.not_xor]
  · rw [getLsbD_buttons_packReport S free g hi, if_neg hne]

/-- Settles O34: PACK's row and operand, and the tilt bit of each TiltState that a rule writes. -/
theorem packHandsOverTheReport : Obligations.PackHandsOverTheReport := by
  refine ⟨fun w g => by rw [pack_mem_decode_iff, eq_pad_ofWord_iff], fun g s => ?_⟩
  refine ⟨tiltBit s.now.tiltState s.now.ctrl (Config.tiltBitOfCode11 s.cycle), fun hstate => ?_, fun hstate => ?_,
    fun hstate => ?_, rfl⟩
  · rw [hstate, tiltBit_tilted]
  · rw [hstate, tiltBit_flat]
  · rw [hstate, tiltBit_unknown]

/-- Settles O37: a flat TiltState with TILT_BIT_POL clear composes an active tilt bit, which INV_EN inverts with the rest. -/
theorem goldenVectorPacks : Obligations.GoldenVectorPacks := by
  intro S free k _ _ hflat hinv hpol
  obtain ⟨-, -, hax, hay, haux⟩ := reportByte_serialise
    (emit (compose (1#16 <<< k) (tiltBit S.tiltState S.ctrl free) S.ctrl) S.ctrl) 10 20 3
  refine ⟨hax, hay, haux, ?_⟩
  rw [extract_buttons_packReport, hflat, tiltBit_flat, hpol, Bool.not_false, compose_true, emit, if_pos hinv]

/-- Settles O38: each byte by its place in the concatenation that a report is. -/
theorem reportBytesInWireOrder : Obligations.ReportBytesInWireOrder :=
  reportByte_serialise

end Sys2Proof.Machine

namespace Sys2Proof

/-! ### The words that select the queue's operations -/

/-- Both rows of the enqueue ask for a request without RST, and they have no operand (30_encoding.md R92). -/
theorem mem_decode_of_mem_enqueueOps {i : Instr} (hi : i ∈ [Instr.enq, .enqPurge]) (w : Word) :
    i ∈ decode w ↔ w.getLsbD 0 = false ∧ w.getLsbD 2 = true := by
  obtain ⟨hpattern, hmem⟩ : i.pattern = ⟨0x005, 0x004⟩ ∧ i ∈ (Stim.ofWord w).operations := by
    simp only [List.mem_cons, List.not_mem_nil, or_false] at hi
    obtain rfl | rfl := hi
    all_goals exact ⟨rfl, by simp [Stim.operations]⟩
  rw [mem_decode, and_iff_right hmem, hpattern, accepts_request, Bool.and_eq_true, Bool.not_eq_true']

theorem deq_mem_decode_iff (w : Word) : .deq ∈ decode w ↔ w.getLsbD 0 = false := by
  have hmem : .deq ∈ (Stim.ofWord w).operations := by simp [Stim.operations]
  rw [mem_decode, and_iff_right hmem, Instr.pattern, accepts_noReset, Bool.not_eq_true']

end Sys2Proof

namespace Sys2Proof.Machine

/-! ### The queue's operations, one by one (43_queue.md R181 to R183) -/

theorem State.enqueueOnto_of_packed {s : State} {r : Report} (hr : s.r = some r) (v : List Report) :
    s.enqueueOnto v = { s with nxt := { s.nxt with q := v ++ [r] } } := by
  simp [State.enqueueOnto, State.writeNext, hr]

/-- Settles O39: with a packed report and room in `q1` its condition holds, and it pushes the report onto `q1`. -/
theorem enqueueAppendsTheReport : Obligations.EnqueueAppendsTheReport := by
  refine ⟨mem_decode_of_mem_enqueueOps (by simp), fun s r hr hroom => ?_⟩
  have hrun : mayEnqueue s = true := by simp [mayEnqueue, capacity, hr, hroom]
  rw [exec_enq, hrun, State.runIf_true, State.enqueueOnto_of_packed hr]

/-- Settles O40: with a packed report and a full `q1` its condition holds, and it pushes the report onto the purged
queue. -/
theorem enqueueIntoAFullQueuePurges : Obligations.EnqueueIntoAFullQueuePurges := by
  refine ⟨mem_decode_of_mem_enqueueOps (by simp), fun s r hr hfull => ?_⟩
  have hrun : mayPurge s = true := by simp [mayPurge, capacity, hr, hfull]
  rw [exec_enqPurge, hrun, State.runIf_true, State.enqueueOnto_of_packed hr]
  rfl

/-- DEQ's condition is that of the two fetches together, which split it by the deduplicator's comparison (44_sender.md
R200, R201). -/
theorem mayDequeue_eq_or (s : State) : mayDequeue s = (mayDiscardDup s || mayFetchNew s) := by
  rw [mayDiscardDup, mayFetchNew, bne, ← Bool.and_or_distrib_left, Bool.or_not_self, Bool.and_true]

/-- Settles O41: its condition is the fetches', and with a free sender and a head it takes that head off. -/
theorem dequeueTakesTheOldest : Obligations.DequeueTakesTheOldest :=
  ⟨deq_mem_decode_iff, mayDequeue_eq_or, fun _ _ _ hfree hq =>
    (exec_deq_of_cons hfree hq).trans (congrArg Host.Outcome.next (State.dequeue_of_cons hq))⟩

/-! ### The enqueue of a request (43_queue.md R184, R186, R187) -/

theorem refEnqueue_of_room {p : Params} {w : Stim} (hreq : w.inValid = true) (report : Report) {q : List Report}
    (hroom : q.length < p.cap.toNat) : refEnqueue p w report q = q ++ [report] := by
  rw [refEnqueue, if_pos hreq, if_pos hroom]

/-- With room or with a purge, the report of the cycle is the newest of the queue. -/
theorem getLast?_refEnqueue {w : Stim} (hreq : w.inValid = true) (p : Params) (report : Report) (q : List Report) :
    (refEnqueue p w report q).getLast? = some report := by
  rw [refEnqueue, if_pos hreq]
  split_ifs
  · exact List.getLast?_concat
  · rfl

/-- A free sender takes the oldest report off the queue, and starts the write of one that differs from the last one
sent. -/
theorem SenderOutcome.takes_oldest {S n n' : Regs} {done ok : Bool} {q rest : List Report} {h : Report}
    (hsender : SenderOutcome S done ok n n' q) (hfree : S.sndState = .idle) (hq : S.q = h :: rest) :
    q = rest ∧ (h ≠ S.lastSent → n'.sndCur = h ∧ n'.sndState = .tx) := by
  cases hsender with
  | empty _ hnil => rw [hq] at hnil; cases hnil
  | duplicate _ _ hdup =>
    obtain ⟨rfl, rfl⟩ := List.cons.inj (hq.symm.trans hdup)
    exact ⟨rfl, fun hne => absurd rfl hne⟩
  | fetch _ _ _ hcons =>
    obtain ⟨rfl, rfl⟩ := List.cons.inj (hq.symm.trans hcons)
    exact ⟨rfl, fun _ => ⟨rfl, rfl⟩⟩
  | wait hbusy | doneOk hbusy | doneFail hbusy => rw [hfree] at hbusy; cases hbusy

/-- A step without RST as the sender and the queue see it: the sender's outcome is on fields that the other parts have
written, and the report of a request is enqueued after the sender's dequeue. -/
theorem step_senderOutcome {s : State} (hrst : s.word.getLsbD 0 = false) :
    ∃ t n n' q, step s = .next t ∧
      SenderOutcome s.now (s.word.getLsbD 3) (s.word.getLsbD 4) n n' q ∧
      t.now = { n' with
        q := refEnqueue s.params (Stim.ofWord s.word)
          (packReport s.now (Config.tiltBitOfCode11 s.cycle) (Stim.ofWord s.word).pad) q } := by
  obtain ⟨t, ht, -, -, hnow⟩ := step_eq_reference s
  rw [refStep_of_noReset hrst] at hnow
  exact ⟨t, _, _, _, ht, refSender_outcome s.now (Stim.ofWord s.word) _, hnow⟩

/-- Settles O42: the enqueue comes last in the cycle, and neither it nor the dequeue lets the queue outgrow CAP. The
capacity rules do not read CLK_PER_MS, about which the statement assumes nothing. -/
theorem everyRequestEntersAsTheNewest : Obligations.EveryRequestEntersAsTheNewest := by
  intro s hrst hreq
  obtain ⟨t, _, _, q, ht, hsender, hnow⟩ := step_senderOutcome hrst
  refine ⟨t, ht, ?_, fun hcap hfits => ?_⟩
  · rw [hnow]; exact getLast?_refEnqueue hreq _ _ _
  · rw [hnow]
    exact length_refEnqueue_le (p := { s.params with clkPerMs := 1 }) ⟨hcap, le_rfl⟩ _ _
      (hsender.length_le.trans hfits)

/-- Settles O43: the dequeue leaves room, since the rest of a queue within CAP is shorter than CAP. -/
theorem dequeueComesBeforeEnqueue : Obligations.DequeueComesBeforeEnqueue := by
  intro s h rest hrst hreq hfree hq hfits
  obtain ⟨t, _, _, q, ht, hsender, hnow⟩ := step_senderOutcome hrst
  obtain ⟨rfl, hfetch⟩ := hsender.takes_oldest hfree hq
  have hroom : q.length < s.params.cap.toNat := by rw [hq] at hfits; exact hfits
  refine ⟨t, ht, ?_, ?_⟩
  · rw [hnow]; exact refEnqueue_of_room hreq _ hroom
  · rw [hnow]; exact hfetch

/-! ### The physical form of the queue (43_queue.md R180, 10_state.md R28) -/

/-- A ring that is not empty stands for its head entry, before what the ring without it stands for. -/
theorem RingBuffer.toSeq_eq_cons {cap : Nat} {g : RingBuffer} (hhead : g.head < cap) (hpos : 0 < g.count) :
    g.toSeq cap = g.first :: (g.pop cap).toSeq cap := by
  have hnext (i : Nat) : (g.head + (i + 1)) % cap = ((g.head + 1) % cap + i) % cap := by
    rw [Nat.mod_add_mod, Nat.add_assoc, Nat.add_comm 1 i]
  obtain ⟨n, hn⟩ := Nat.exists_eq_add_one.mpr hpos
  simp only [RingBuffer.toSeq, RingBuffer.first, RingBuffer.pop, hn, List.range_succ_eq_map, List.map_cons,
    List.map_map, Nat.add_zero, Nat.mod_eq_of_lt hhead, Nat.add_sub_cancel]
  exact congrArg (_ :: ·) (List.map_congr_left fun i _ => congrArg (g.mem.getD · 0) (hnext i))

/-- Places less than CAP apart in the ring are different entries of the storage. -/
theorem add_mod_ne_add_mod_of_lt {cap head i n : Nat} (hi : i < n) (hn : n < cap) :
    (head + n) % cap ≠ (head + i) % cap := by
  intro h
  have hmod : n ≡ i [MOD cap] := Nat.ModEq.add_left_cancel' head h
  exact hi.ne' (hmod.eq_of_lt_of_lt hn (hi.trans hn))

/-- A push with a place free leaves the entries of the queue alone and adds its own as the last. -/
theorem RingBuffer.toSeq_push {cap : Nat} {g : RingBuffer} (hmem : g.mem.length = cap) (hroom : g.count < cap)
    (r : Report) : (g.push cap r).toSeq cap = g.toSeq cap ++ [r] := by
  have hlast : (g.head + g.count) % cap < g.mem.length := by
    rw [hmem]; exact Nat.mod_lt _ (Nat.zero_lt_of_lt hroom)
  have hnew : (g.push cap r).mem.getD ((g.head + g.count) % cap) 0 = r := by
    rw [List.getD_eq_getElem?_getD, RingBuffer.push, List.getElem?_set_self hlast, Option.getD_some]
  have hkeep : ∀ i ∈ List.range g.count,
      (g.push cap r).mem.getD ((g.head + i) % cap) 0 = g.mem.getD ((g.head + i) % cap) 0 := by
    intro i hi
    have hne := add_mod_ne_add_mod_of_lt (head := g.head) (List.mem_range.mp hi) hroom
    rw [List.getD_eq_getElem?_getD, RingBuffer.push, List.getElem?_set_ne hne, ← List.getD_eq_getElem?_getD]
  have hcount : (g.push cap r).count = g.count + 1 := rfl
  calc (g.push cap r).toSeq cap
      = (List.range g.count).map (fun i => (g.push cap r).mem.getD ((g.head + i) % cap) 0) ++
          [(g.push cap r).mem.getD ((g.head + g.count) % cap) 0] := by
        rw [RingBuffer.toSeq, hcount, List.range_succ, List.map_append]; rfl
    _ = g.toSeq cap ++ [r] := by rw [List.map_congr_left hkeep, hnew]; rfl

theorem RingBuffer.WF.pop {cap : Nat} {g : RingBuffer} (h : g.WF cap) : (g.pop cap).WF cap := by
  obtain ⟨hmem, hhead, hcount⟩ := h
  exact ⟨hmem, Nat.mod_lt _ (Nat.zero_lt_of_lt hhead), (Nat.sub_le _ _).trans hcount⟩

theorem RingBuffer.WF.push {cap : Nat} {g : RingBuffer} (h : g.WF cap) (hroom : g.count < cap) (r : Report) :
    (g.push cap r).WF cap := by
  obtain ⟨hmem, hhead, -⟩ := h
  exact ⟨List.length_set.trans hmem, hhead, hroom⟩

/-- Settles O44: the head entry is the sequence's head, a pop its tail, a push its append, and a purge empties it. -/
theorem ringStorageRefinesTheSequence : Obligations.RingStorageRefinesTheSequence := by
  intro cap g r _ hwf
  have ⟨hmem, hhead, _⟩ := hwf
  refine ⟨g.length_toSeq cap, fun hpos => ?_, fun hroom => ?_, ⟨hmem, hhead, Nat.zero_le cap⟩, rfl⟩
  · rw [RingBuffer.toSeq_eq_cons hhead hpos]
    exact ⟨rfl, hwf.pop, rfl⟩
  · exact ⟨hwf.push hroom r, RingBuffer.toSeq_push hmem hroom r⟩

end Sys2Proof.Machine

namespace Sys2Proof

/-! ### The words that select the sender's operations -/

/-- The rows of a free sender ask for no RST alone, and they have no operand (30_encoding.md R92). -/
theorem mem_decode_of_mem_fetchOps {i : Instr} (hi : i ∈ [Instr.sndEmpty, .sndFetchDup, .sndFetchNew]) (w : Word) :
    i ∈ decode w ↔ w.getLsbD 0 = false := by
  obtain ⟨hpattern, hmem⟩ : i.pattern = ⟨0x001, 0x000⟩ ∧ i ∈ (Stim.ofWord w).operations := by
    simp only [List.mem_cons, List.not_mem_nil, or_false] at hi
    obtain rfl | rfl | rfl := hi
    all_goals exact ⟨rfl, by simp [Stim.operations]⟩
  rw [mem_decode, and_iff_right hmem, hpattern, accepts_noReset, Bool.not_eq_true']

theorem sndWait_mem_decode_iff (w : Word) : .sndWait ∈ decode w ↔ w.getLsbD 0 = false ∧ w.getLsbD 3 = false := by
  have hmem : .sndWait ∈ (Stim.ofWord w).operations := by simp [Stim.operations]
  rw [mem_decode, and_iff_right hmem, Instr.pattern, accepts_notDone, Bool.and_eq_true, Bool.not_eq_true',
    Bool.not_eq_true']

theorem sndDoneOk_mem_decode_iff (w : Word) :
    .sndDoneOk ∈ decode w ↔ w.getLsbD 0 = false ∧ w.getLsbD 3 = true ∧ w.getLsbD 4 = true := by
  have hmem : .sndDoneOk ∈ (Stim.ofWord w).operations := by simp [Stim.operations]
  rw [mem_decode, and_iff_right hmem, Instr.pattern, accepts_doneOk, Bool.and_eq_true, Bool.and_eq_true,
    Bool.not_eq_true', and_assoc]

theorem sndDoneFail_mem_decode_iff (w : Word) :
    .sndDoneFail ∈ decode w ↔ w.getLsbD 0 = false ∧ w.getLsbD 3 = true ∧ w.getLsbD 4 = false := by
  have hmem : .sndDoneFail ∈ (Stim.ofWord w).operations := by simp [Stim.operations]
  rw [mem_decode, and_iff_right hmem, Instr.pattern, accepts_doneFail, Bool.and_eq_true, Bool.and_eq_true,
    Bool.not_eq_true', Bool.not_eq_true', and_assoc]

/-- Its operand is the word's TX_OK. -/
theorem sndDoneIgnored_mem_decode_iff (w : Word) (ok : Bool) :
    .sndDoneIgnored ok ∈ decode w ↔ w.getLsbD 0 = false ∧ w.getLsbD 3 = true ∧ ok = w.getLsbD 4 := by
  have hoperand : .sndDoneIgnored ok ∈ (Stim.ofWord w).operations ↔ ok = w.getLsbD 4 := by
    simp [Stim.operations, Stim.ofWord]
  rw [mem_decode, hoperand, Instr.pattern, accepts_done, Bool.and_eq_true, Bool.not_eq_true', and_comm, and_assoc]

end Sys2Proof

namespace Sys2Proof.Machine

/-! ### The sender's operations, one by one (44_sender.md R200 to R206) -/

theorem senderBusy_of_tx {s : State} (h : s.now.sndState = .tx) : senderBusy s = true := by
  simp [senderBusy, h]

theorem State.fetchNew_of_cons {s : State} {h : Report} {rest : List Report} (hq : s.now.q = h :: rest) :
    s.fetchNew = { s with q1 := rest, nxt := { s.nxt with q := rest, sndCur := h, sndState := .tx } } := by
  rw [State.fetchNew, State.dequeue_of_cons hq]
  simp [State.startWrite, State.writeNext, hq]

/-- Settles O45: whether or not their conditions hold, the three operations write nothing. -/
theorem waitingSenderChangesNothing : Obligations.WaitingSenderChangesNothing := by
  refine ⟨mem_decode_of_mem_fetchOps (by simp), sndWait_mem_decode_iff, sndDoneIgnored_mem_decode_iff,
    fun s _ _ => ?_, fun s _ => ?_, fun s ok _ => ?_⟩
  · rw [exec_sndEmpty, State.runIf_id]
  · rw [exec_sndWait, State.runIf_id]
  · rw [exec_sndDoneIgnored, State.runIf_id]

/-- Settles O46: with a free sender and the last report sent at the head its condition holds, and it dequeues. -/
theorem fetchedDuplicateIsDiscarded : Obligations.FetchedDuplicateIsDiscarded := by
  refine ⟨mem_decode_of_mem_fetchOps (by simp), fun s rest hfree hq => ?_⟩
  have hrun : mayDiscardDup s = true := by simp [mayDiscardDup, mayDequeue, senderFree, hfree, hq]
  rw [exec_sndFetchDup, hrun, State.runIf_true, State.dequeue_of_cons hq]

/-- Settles O47: with a free sender and another report at the head its condition holds, and it dequeues and starts. -/
theorem fetchedNewReportStartsAWrite : Obligations.FetchedNewReportStartsAWrite := by
  refine ⟨mem_decode_of_mem_fetchOps (by simp), fun s h rest hfree hq hnew => ?_⟩
  have hrun : mayFetchNew s = true := by simp [mayFetchNew, mayDequeue, senderFree, hfree, hq, hnew]
  rw [exec_sndFetchNew, hrun, State.runIf_true, State.fetchNew_of_cons hq]

/-- Settles O48: with a write in flight its condition holds, and it records the report before it frees the sender. -/
theorem successfulWriteIsRecorded : Obligations.SuccessfulWriteIsRecorded := by
  refine ⟨sndDoneOk_mem_decode_iff, fun s hbusy => ?_⟩
  rw [exec_sndDoneOk, senderBusy_of_tx hbusy, State.runIf_true]
  rfl

/-- Settles O49: with a write in flight its condition holds, and it writes the state of the sender alone. -/
theorem failedWriteIsNotRecorded : Obligations.FailedWriteIsNotRecorded := by
  refine ⟨sndDoneFail_mem_decode_iff, fun s hbusy => ?_⟩
  rw [exec_sndDoneFail, senderBusy_of_tx hbusy, State.runIf_true]
  rfl

/-! ### A step as the sender sees it -/

/-- `n` has the sender's fields of `S`: no sender operation has written it yet. -/
structure Regs.SameSender (S n : Regs) : Prop where
  sndState : n.sndState = S.sndState
  sndCur : n.sndCur = S.sndCur
  lastSent : n.lastSent = S.lastSent

/-- The sender's fields do not depend on what the enqueue writes to the queue after it (40_cycle.md R112). -/
theorem SenderOutcome.writeQueue {S n n' : Regs} {done ok : Bool} {q : List Report}
    (h : SenderOutcome S done ok n n' q) (v : List Report) :
    SenderOutcome S done ok { n with q := v } { n' with q := v } q := by
  cases h with
  | empty hfree hq => exact .empty hfree hq
  | duplicate _ hfree hq => exact .duplicate q hfree hq
  | fetch h _ hfree hq hnew => exact .fetch h q hfree hq hnew
  | wait hbusy hdone => exact .wait hbusy hdone
  | doneOk hbusy hdone hok => exact .doneOk hbusy hdone hok
  | doneFail hbusy hdone hok => exact .doneFail hbusy hdone hok

/-- The fields after a whole cycle without RST are an outcome of the sender, from fields in which the other parts have
left the sender's alone; the queue is the one after the dequeue, with the request of the cycle. -/
theorem refStep_senderOutcome {w : Stim} (hrst : w.rst = false) (p : Params) (free : Bool) (S : Regs) :
    ∃ n q, S.SameSender n ∧ SenderOutcome S w.txDone w.txOk n (refStep p free S w) q ∧
      (refStep p free S w).q = refEnqueue p w (packReport S free w.pad) q := by
  obtain ⟨c, m, hport⟩ := refRegisterPort_eq w S
  obtain ⟨-, hstate, hcur, hlast⟩ := (refDebounce_outcome p S w { S with ctrl := c, holdMs := m }).frame
  have hsender := refSender_outcome S w (refDebounce p S w { S with ctrl := c, holdMs := m })
  rw [refStep_of_noReset hrst, hport]
  refine ⟨_, _, ?_, hsender.writeQueue (refEnqueue p w (packReport S free w.pad) (refDequeue S)), rfl⟩
  exact ⟨hstate, hcur, hlast⟩

theorem step_senderOutcome_and_sameSender {s : State} (hrst : s.word.getLsbD 0 = false) :
    ∃ t n q, step s = .next t ∧ t.stim = s.stim.tail ∧ s.now.SameSender n ∧
      SenderOutcome s.now (s.word.getLsbD 3) (s.word.getLsbD 4) n t.now q ∧
      t.now.q = refEnqueue s.params (Stim.ofWord s.word)
        (packReport s.now (Config.tiltBitOfCode11 s.cycle) (Stim.ofWord s.word).pad) q := by
  obtain ⟨t, ht, -, hstim, hnow⟩ := step_eq_reference_and_consumes s
  obtain ⟨n, q, hn, hsender, hq⟩ := refStep_senderOutcome (w := Stim.ofWord s.word) hrst s.params
    (Config.tiltBitOfCode11 s.cycle) s.now
  exact ⟨t, n, q, ht, hstim, hn, hnow ▸ hsender, hnow ▸ hq⟩

/-! ### The end of a write (44_sender.md R203, R204, R209, R210) -/

/-- A completion frees the sender, and it records the report in flight if the write succeeded. -/
theorem SenderOutcome.eq_of_done {S n n' : Regs} {done ok : Bool} {q : List Report}
    (h : SenderOutcome S done ok n n' q) (hbusy : S.sndState = .tx) (hdone : done = true) :
    n' = { n with lastSent := if ok then S.sndCur else n.lastSent, sndState := .idle } ∧ q = S.q := by
  cases h with
  | doneOk _ _ hok => exact ⟨by rw [if_pos hok], rfl⟩
  | doneFail _ _ hfail => exact ⟨by rw [hfail]; rfl, rfl⟩
  | empty hfree | duplicate _ hfree | fetch _ _ hfree => rw [hbusy] at hfree; cases hfree
  | wait _ hwait => rw [hdone] at hwait; cases hwait

theorem refEnqueue_of_noRequest {w : Stim} (hreq : w.inValid = false) (p : Params) (report : Report) (q : List Report) :
    refEnqueue p w report q = q := by
  simp [refEnqueue, hreq]

/-- Settles O50: the write records the report in flight, which by the invariant differs from the last one sent. -/
theorem consecutiveSuccessfulWritesDiffer : Obligations.ConsecutiveSuccessfulWritesDiffer := by
  intro s ⟨_, hinv⟩ hbusy hrst hdone hok
  obtain ⟨t, n, q, ht, -, -, hsender, -⟩ := step_senderOutcome_and_sameSender hrst
  obtain ⟨hnow, -⟩ := hsender.eq_of_done hbusy hdone
  have hsent : t.now.lastSent = s.now.sndCur := by rw [hnow, hok]; rfl
  exact ⟨t, ht, by rw [hnow], hsent, hsent ▸ hinv.inFlightNew hbusy⟩

/-- Settles O53: the failed write leaves the last report sent and the queue alone, so the free sender of the next cycle
finds a head that is not the last one sent. -/
theorem failedReportIsTriedAgain : Obligations.FailedReportIsTriedAgain := by
  intro s w w' ws rest hstim hbusy hq hnew hrst hreq hdone hfail hrst'
  obtain rfl := s.word_of_stim w (w' :: ws) hstim
  obtain ⟨u, n, q, hu, hustim, hn, hsender, huq⟩ := step_senderOutcome_and_sameSender hrst
  obtain ⟨hnow, rfl⟩ := hsender.eq_of_done hbusy hdone
  have hufree : u.now.sndState = .idle := by rw [hnow]
  have hulast : u.now.lastSent = s.now.lastSent := by rw [hnow, hfail]; exact hn.lastSent
  rw [refEnqueue_of_noRequest hreq, hq] at huq
  rw [hstim] at hustim
  obtain rfl := u.word_of_stim w' ws hustim
  obtain ⟨t, _, _, ht, -, -, hsender', -⟩ := step_senderOutcome_and_sameSender hrst'
  obtain ⟨-, hfetch⟩ := hsender'.takes_oldest hufree huq
  obtain ⟨hcur, htx⟩ := hfetch (hulast ▸ hnew)
  have hfirst : runSteps 1 s = .next u := (runSteps_succ_of_runSteps rfl).trans hu
  exact ⟨u, t, hfirst, hufree, hulast, (runSteps_succ_of_runSteps hfirst).trans ht, htx, hcur⟩

/-! ### The deduplicator (44_sender.md R208) -/

/-- A report in the queue after the enqueue was there before, or it is the one of the cycle's request. -/
theorem mem_refEnqueue {p : Params} {w : Stim} {report y : Report} {q : List Report}
    (h : y ∈ refEnqueue p w report q) : y ∈ q ∨ w.inValid = true ∧ y = report := by
  unfold refEnqueue at h
  split_ifs at h with hreq hroom
  · exact (List.mem_append.mp h).imp_right fun hy => ⟨hreq, List.mem_singleton.mp hy⟩
  · exact .inr ⟨hreq, List.mem_singleton.mp h⟩
  · exact .inl h

/-- With only duplicates queued, a free sender writes no field: it discards one of them, or the queue is empty. -/
theorem SenderOutcome.eq_of_onlyDuplicatesOf {S n n' : Regs} {done ok : Bool} {q : List Report} {x : Report}
    (h : SenderOutcome S done ok n n' q) (hS : S.OnlyDuplicatesOf x) : n' = n ∧ ∀ y ∈ q, y = x := by
  obtain ⟨hfree, hlast, hdup⟩ := hS
  cases h with
  | empty => exact ⟨rfl, nofun⟩
  | duplicate _ _ hq => exact ⟨rfl, fun y hy => hdup y (hq ▸ List.mem_cons_of_mem _ hy)⟩
  | fetch h _ _ hq hnew => exact absurd ((hdup h (hq ▸ List.mem_cons_self)).trans hlast.symm) hnew
  | wait hbusy | doneOk hbusy | doneFail hbusy => rw [hfree] at hbusy; cases hbusy

/-- One cycle without RST in which at most another duplicate is packed. -/
theorem step_onlyDuplicatesOf {s : State} {x : Report} (hs : s.now.OnlyDuplicatesOf x) (hrst : s.word.getLsbD 0 = false)
    (hpack : s.word.getLsbD 2 = true →
      packReport s.now (Config.tiltBitOfCode11 s.cycle) (Stim.ofWord s.word).pad = x) :
    ∃ t, step s = .next t ∧ t.now.OnlyDuplicatesOf x := by
  obtain ⟨t, n, q, ht, -, hn, hsender, hq⟩ := step_senderOutcome_and_sameSender hrst
  obtain ⟨hkeep, hdup⟩ := hsender.eq_of_onlyDuplicatesOf hs
  obtain ⟨hfree, hlast, -⟩ := hs
  refine ⟨t, ht, ?_, ?_, fun y hy => ?_⟩
  · rw [hkeep, hn.sndState, hfree]
  · rw [hkeep, hn.lastSent, hlast]
  · rw [hq] at hy
    obtain hold | ⟨hreq, rfl⟩ := mem_refEnqueue hy
    · exact hdup y hold
    · exact hpack hreq

/-- Settles O51, by induction on the number of cycles: each of them keeps the duplicates alone in the queue. -/
theorem duplicatesStartNoWrite : Obligations.DuplicatesStartNoWrite := by
  intro n s x hs hlen hcycles
  induction n with
  | zero => exact ⟨s, rfl, hs⟩
  | succ n ih =>
    obtain ⟨u, hu, hdup⟩ := ih (Nat.le_of_succ_le hlen) fun k hk => hcycles k (Nat.lt_succ_of_lt hk)
    obtain ⟨hrst, hpack⟩ := hcycles n n.lt_succ_self u hu
    obtain ⟨t, ht, hkept⟩ := step_onlyDuplicatesOf hdup hrst hpack
    exact ⟨t, (runSteps_succ_of_runSteps hu).trans ht, hkept⟩

end Sys2Proof.Machine

namespace Sys2Proof

/-! ### The words that select the register port's operations -/

/-- Every word meets the row of CFG_READ, and the operand is CFG_IDX (30_encoding.md R92). -/
theorem cfgRead_mem_decode_iff (w : Word) (i : BitVec 3) : .cfgRead i ∈ decode w ↔ i = w.extractLsb' 8 3 := by
  have hoperand : .cfgRead i ∈ (Stim.ofWord w).operations ↔ i = w.extractLsb' 8 3 := by
    simp [Stim.operations, Stim.ofWord]
  rw [mem_decode, hoperand, Instr.pattern, and_iff_left (accepts_any w)]

theorem registerWrite_mem_operations_iff (w : Word) (i : BitVec 3) (d : RegWord) :
    registerWrite i d ∈ (Stim.ofWord w).operations ↔ d = w.extractLsb' 64 32 := by
  unfold registerWrite
  split
  all_goals simp [Stim.operations, Stim.ofWord]

/-- The row of a register write asks for CFG_WE and its index without RST, and its operand is CFG_WDATA. -/
theorem registerWrite_mem_decode_iff (w : Word) (i : BitVec 3) (d : RegWord) :
    registerWrite i d ∈ decode w ↔
      w.getLsbD 0 = false ∧ w.getLsbD 5 = true ∧ w.extractLsb' 8 3 = i ∧ d = w.extractLsb' 64 32 := by
  rw [mem_decode, registerWrite_mem_operations_iff, registerWrite_pattern, accepts_write, Bool.and_eq_true,
    Bool.and_eq_true, Bool.not_eq_true', beq_iff_eq, and_comm, and_assoc, and_assoc]

end Sys2Proof

namespace Sys2Proof.Machine

/-! ### The register port's operations, one by one (45_register_port.md R220 to R223) -/

theorem regRead_ctrl (p : Params) (S : Regs) : regRead p S 0 = ctrlImage S.ctrl := rfl

theorem regRead_hold (p : Params) (S : Regs) : regRead p S 1 = 0#16 ++ S.holdMs := rfl

theorem exec_cfgRead (i : BitVec 3) (s : State) :
    exec (.cfgRead i) s = .next { s with rdata := regRead s.params s.now i } := rfl

theorem DbState.code_eq_ofBool (d : DbState) : d.code = BitVec.ofBool (d == .holding) := by
  cases d <;> rfl

theorem SndState.code_eq_ofBool (d : SndState) : d.code = BitVec.ofBool (d == .tx) := by
  cases d <;> rfl

/-- Settles O16: its row accepts every word, and the value it drives is `RegRead`, whose cases are the registers. -/
theorem cfgReadDrivesTheRegister : Obligations.CfgReadDrivesTheRegister := by
  refine ⟨cfgRead_mem_decode_iff, fun s => ⟨rfl, rfl, ?_, rfl, rfl, rfl, rfl, rfl⟩⟩
  rw [exec_cfgRead, regRead_status, statusWord, DbState.code_eq_ofBool, SndState.code_eq_ofBool]
  rfl

/-- Settles O17: its row is the register write of index 0, and its meaning has no condition. -/
theorem ctrlWriteReplacesTheFields : Obligations.CtrlWriteReplacesTheFields :=
  ⟨fun w d => registerWrite_mem_decode_iff w 0 d, fun _ _ => rfl⟩

/-- Settles O18: its row is the register write of index 1, and its meaning has no condition. -/
theorem holdWriteReplacesTheHoldTime : Obligations.HoldWriteReplacesTheHoldTime :=
  ⟨fun w d => registerWrite_mem_decode_iff w 1 d, fun _ _ => rfl⟩

/-- Settles O19: their rows are the register writes of the other indices, and they write nothing. -/
theorem readOnlyWritesAreIgnored : Obligations.ReadOnlyWritesAreIgnored := by
  refine ⟨fun w d => ?_, fun d s => ⟨rfl, rfl, rfl, rfl, rfl, rfl⟩⟩
  have hrow (i : BitVec 3) : registerWrite i d ∈ decode w ↔
      (w.getLsbD 0 = false ∧ w.getLsbD 5 = true ∧ d = w.extractLsb' 64 32) ∧ w.extractLsb' 8 3 = i := by
    rw [registerWrite_mem_decode_iff, and_comm (a := w.extractLsb' 8 3 = i), and_assoc, and_assoc]
  exact ⟨hrow 2, hrow 3, hrow 4, hrow 5, hrow 6, hrow 7⟩

/-! ### What a register reads after a write -/

/-- The fields read back from CTRL stand where they were written, and the masks of the fields make up `0xf0f`
(10_state.md R36). -/
theorem ctrlImage_ctrlWrite (d : RegWord) : ctrlImage (ctrlWrite d) = d &&& 0x00000f0f#32 := by
  have hinv : (bit (d.getLsbD 0)).setWidth 32 = d &&& (BitVec.allOnes 1).setWidth 32 := by
    simpa only [bit_getLsbD, BitVec.shiftLeft_zero] using extractLsb'_shiftLeft_eq_and d 0 1
  rw [← BitVec.setWidth_eq (ctrlImage (ctrlWrite d))]
  unfold ctrlImage ctrlWrite
  simp only [setWidth_append_eq_or, BitVec.shiftLeft_or_distrib, ← BitVec.shiftLeft_add, BitVec.setWidth_zero,
    BitVec.zero_shiftLeft, BitVec.zero_or, BitVec.or_zero, hinv]
  simp only [bit_getLsbD, extractLsb'_shiftLeft_eq_and, ← BitVec.and_or_distrib_left]
  rfl

/-- HOLD reads back the low half of what was written (10_state.md R37). -/
theorem zero_append_holdWrite (d : RegWord) : 0#16 ++ holdWrite d = d &&& 0x0000ffff#32 := by
  calc 0#16 ++ holdWrite d = (holdWrite d).setWidth 32 := (BitVec.setWidth_eq_append (by decide)).symm
    _ = (holdWrite d).setWidth 32 <<< 0 := (BitVec.shiftLeft_zero _).symm
    _ = d &&& 0x0000ffff#32 := extractLsb'_shiftLeft_eq_and d 0 16

/-! ### A step as the register port sees it -/

theorem refRegisterPort_ctrl {w : Stim} (hwe : w.cfgWe = true) (n : Regs) :
    (refRegisterPort w n).ctrl = if w.cfgIdx = 0 then ctrlWrite w.cfgWdata else n.ctrl := by
  rw [refRegisterPort, if_pos hwe]
  split_ifs <;> rfl

theorem refRegisterPort_holdMs {w : Stim} (hwe : w.cfgWe = true) (n : Regs) :
    (refRegisterPort w n).holdMs = if w.cfgIdx = 1 then holdWrite w.cfgWdata else n.holdMs := by
  rw [refRegisterPort, if_pos hwe]
  by_cases hctrl : w.cfgIdx = 0
  · simp [hctrl]
  · rw [if_neg hctrl]
    split_ifs <;> rfl

/-- The engine leaves the registers of the port alone (40_cycle.md R112). -/
theorem EngineOutcome.port {p : Params} {S n n' : Regs} {l : Bool} (h : EngineOutcome p S l n n') :
    n'.ctrl = n.ctrl ∧ n'.holdMs = n.holdMs := by
  cases h <;> exact ⟨rfl, rfl⟩

/-- After a whole cycle without RST, CTRL and HOLD are what the register port wrote: no later part writes them
(40_cycle.md R112). -/
theorem refStep_port {w : Stim} (hrst : w.rst = false) (p : Params) (free : Bool) (S : Regs) :
    (refStep p free S w).ctrl = (refRegisterPort w S).ctrl ∧
      (refStep p free S w).holdMs = (refRegisterPort w S).holdMs := by
  obtain ⟨_, _, _, hsender⟩ := (refSender_outcome S w (refDebounce p S w (refRegisterPort w S))).eq_writeSender
  rw [refStep_of_noReset hrst, hsender]
  exact (refDebounce_outcome p S w (refRegisterPort w S)).port

/-- Settles O22: the read shows the register of `S`, and after the step CTRL and HOLD are what the register port of the
cycle left there. -/
theorem registerWritesActFromTheNextCycle : Obligations.RegisterWritesActFromTheNextCycle := by
  intro s hrst hwe
  obtain ⟨t, ht, -, hrdata, hnow⟩ := step_eq_reference s
  obtain ⟨hctrl, hhold⟩ := refStep_port (w := Stim.ofWord s.word) hrst s.params (Config.tiltBitOfCode11 s.cycle) s.now
  rw [← hnow, refRegisterPort_ctrl hwe] at hctrl
  rw [← hnow, refRegisterPort_holdMs hwe] at hhold
  refine ⟨t, ht, hrdata, ?_, ?_⟩
  · rw [regRead_ctrl, regRead_ctrl, hctrl, apply_ite ctrlImage, ctrlImage_ctrlWrite]
    rfl
  · rw [regRead_hold, regRead_hold, hhold, apply_ite (0#16 ++ ·), zero_append_holdWrite]
    rfl

end Sys2Proof.Machine

namespace Sys2Proof

/-! ### The word that selects RESET -/

/-- RESET's row asks for RST alone, and it has no operand (30_encoding.md R92). -/
theorem reset_mem_decode_iff (w : Word) : .reset ∈ decode w ↔ w.getLsbD 0 = true := by
  have hlisted : .reset ∈ (Stim.ofWord w).operations := List.mem_cons_self
  rw [mem_decode, and_iff_right hlisted, Instr.pattern, accepts_reset]

end Sys2Proof

namespace Sys2Proof.Machine

/-! ### The reset cycle (70_reset_and_hazards.md R260) -/

theorem refStep_of_reset {w : Stim} (hrst : w.rst = true) (p : Params) (free : Bool) (S : Regs) :
    refStep p free S w = Regs.reset p := if_pos hrst

/-- A step as the next one sees it: `S'` has become `S` (20_memory.md R68), and the word is consumed. -/
theorem step_eq_reference_and_settles (s : State) : ∃ t, step s = .next t ∧ t.params = s.params ∧
    t.stim = s.stim.tail ∧ t.nxt = t.now ∧ t.rdata = regRead s.params s.now (s.word.extractLsb' 8 3) ∧
    t.now = refStep s.params (Config.tiltBitOfCode11 s.cycle) s.now (Stim.ofWord s.word) := by
  obtain ⟨t, ht, hparams, hrdata, hnow⟩ := step_eq_reference s
  obtain ⟨u, hu, ⟨hnxt, -, -⟩, -, hstim, -⟩ := everyStepAnswersANextState s
  cases hu.symm.trans ht
  exact ⟨t, ht, hparams, hstim, hnxt, hrdata, hnow⟩

/-- Settles O11: RESET writes the reset table, and a reset cycle is RESET's writes in the reference cycle. -/
theorem resetWritesEveryField : Obligations.ResetWritesEveryField := by
  refine ⟨reset_mem_decode_iff, fun s => ⟨rfl, fun hrst => ?_⟩⟩
  obtain ⟨t, ht, -, -, hnow⟩ := step_eq_reference s
  exact ⟨t, ht, hnow.trans (refStep_of_reset (w := Stim.ofWord s.word) hrst _ _ _)⟩

/-! ### The code 11 never returns, so the free value is never read (10_state.md R46, 93_implementation_defined.md I4) -/

/-- A dispatch writes TILTED or FLAT, and nothing else writes the TiltState (41_debounce.md R138). -/
theorem EngineOutcome.tiltState_ne_code11 {p : Params} {S n n' : Regs} {l : Bool} (h : EngineOutcome p S l n n')
    (hn : n.tiltState ≠ .code11) : n'.tiltState ≠ .code11 := by
  cases h with
  | quiet | arm | count | discard => exact hn
  | dispatchNow | confirm => dsimp only [refDispatch]; split_ifs <;> exact nofun

/-- This part of the invariant needs no bounds on the parameters, and R261 is said for all of them. -/
theorem refStep_tiltState_ne_code11 {S : Regs} (hS : S.tiltState ≠ .code11) (p : Params) (free : Bool) (w : Stim) :
    (refStep p free S w).tiltState ≠ .code11 := by
  cases hrst : w.rst with
  | true => rw [refStep_of_reset hrst]; exact nofun
  | false =>
    obtain ⟨n, hn, hengine⟩ := refStep_engineOutcome hrst p free S
    exact hengine.tiltState_ne_code11 (hn.tiltState ▸ hS)

theorem tiltBit_eq_of_ne_code11 {ts : TiltState} (h : ts ≠ .code11) (c : Ctrl) (free free' : Bool) :
    tiltBit ts c free = tiltBit ts c free' := by
  cases ts with
  | unknown | flat | tilted => rfl
  | code11 => exact absurd rfl h

theorem refStep_eq_of_ne_code11 {S : Regs} (hS : S.tiltState ≠ .code11) (p : Params) (free free' : Bool) (w : Stim) :
    refStep p free S w = refStep p free' S w := by
  rw [refStep, refStep, packReport, packReport, tiltBit_eq_of_ne_code11 hS S.ctrl free free']

/-! ### Two machines after a reset cycle (R261) -/

/-- Two machines that no later cycle tells apart: they share all that a cycle reads, but for the free value of the code
`11`, which their TiltState is not. They may differ in CFG_RDATA and in the counter of the free values. -/
structure State.SameFuture (s s' : State) : Prop where
  params : s.params = s'.params
  now : s.now = s'.now
  nxt : s.nxt = s'.nxt
  stim : s.stim = s'.stim
  noCode11 : s.now.tiltState ≠ .code11

theorem State.word_eq_of_stim_eq {s s' : State} (h : s.stim = s'.stim) (hne : s.stim ≠ []) : s.word = s'.word := by
  obtain ⟨w, ws, hstim⟩ := List.exists_cons_of_ne_nil hne
  rw [s.word_of_stim w ws hstim, s'.word_of_stim w ws (h ▸ hstim)]

/-- Two machines whose reference cycles end alike become such a pair; each drives the register of its own `S`. -/
theorem step_sameFuture_of_refStep_eq {s s' : State} (hparams : s.params = s'.params) (hstim : s.stim = s'.stim)
    {n : Regs} (hn : n.tiltState ≠ .code11)
    (href : refStep s.params (Config.tiltBitOfCode11 s.cycle) s.now (Stim.ofWord s.word) = n)
    (href' : refStep s'.params (Config.tiltBitOfCode11 s'.cycle) s'.now (Stim.ofWord s'.word) = n) :
    ∃ t t', step s = .next t ∧ step s' = .next t' ∧ t.SameFuture t' ∧ t.stim = s.stim.tail ∧
      t.rdata = regRead s.params s.now (s.word.extractLsb' 8 3) ∧
      t'.rdata = regRead s'.params s'.now (s'.word.extractLsb' 8 3) := by
  obtain ⟨t, ht, htparams, htstim, htnxt, hrdata, htnow⟩ := step_eq_reference_and_settles s
  obtain ⟨t', ht', htparams', htstim', htnxt', hrdata', htnow'⟩ := step_eq_reference_and_settles s'
  have hnow : t.now = n := htnow.trans href
  have hnow' : t'.now = n := htnow'.trans href'
  have hsame : t.SameFuture t' :=
    { params := by rw [htparams, htparams', hparams]
      now := by rw [hnow, hnow']
      nxt := by rw [htnxt, htnxt', hnow, hnow']
      stim := by rw [htstim, htstim', hstim]
      noCode11 := by rwa [hnow] }
  exact ⟨t, t', ht, ht', hsame, htstim, hrdata, hrdata'⟩

/-- A reset cycle makes any two machines with the same parameters and words such a pair. -/
theorem step_sameFuture_of_reset {s s' : State} (hparams : s.params = s'.params) (hstim : s.stim = s'.stim)
    (hrst : s.word.getLsbD 0 = true) (hrst' : s'.word.getLsbD 0 = true) :
    ∃ t t', step s = .next t ∧ step s' = .next t' ∧ t.SameFuture t' ∧ t.stim = s.stim.tail := by
  have href := refStep_of_reset (w := Stim.ofWord s.word) hrst s.params (Config.tiltBitOfCode11 s.cycle) s.now
  have href' := refStep_of_reset (w := Stim.ofWord s'.word) hrst' s'.params (Config.tiltBitOfCode11 s'.cycle) s'.now
  have hcode : (Regs.reset s.params).tiltState ≠ .code11 := nofun
  obtain ⟨t, t', ht, ht', hsame, htstim, -⟩ := step_sameFuture_of_refStep_eq hparams hstim hcode href
    (href'.trans (congrArg Regs.reset hparams.symm))
  exact ⟨t, t', ht, ht', hsame, htstim⟩

/-- Each cycle with a word placed keeps such a pair, and the two drive the same CFG_RDATA in it. -/
theorem step_keeps_sameFuture {s s' : State} (h : s.SameFuture s') (hplaced : s.stim ≠ []) :
    ∃ t t', step s = .next t ∧ step s' = .next t' ∧ t.SameFuture t' ∧ t.stim = s.stim.tail ∧ t.rdata = t'.rdata := by
  have hword := State.word_eq_of_stim_eq h.stim hplaced
  have hfree := refStep_eq_of_ne_code11 h.noCode11 s.params (Config.tiltBitOfCode11 s'.cycle)
    (Config.tiltBitOfCode11 s.cycle) (Stim.ofWord s.word)
  have hcode := refStep_tiltState_ne_code11 h.noCode11 s.params (Config.tiltBitOfCode11 s.cycle) (Stim.ofWord s.word)
  obtain ⟨t, t', ht, ht', hsame, htstim, hrdata, hrdata'⟩ := step_sameFuture_of_refStep_eq h.params h.stim hcode rfl
    (by rw [← h.params, ← h.now, ← hword, hfree])
  exact ⟨t, t', ht, ht', hsame, htstim, by rw [hrdata, hrdata', h.params, h.now, hword]⟩

/-- So does any number of cycles for which words are placed; CFG_RDATA is that of the last of them. -/
theorem runSteps_keeps_sameFuture {s s' : State} (h : s.SameFuture s') {n : Nat} (hlen : n ≤ s.stim.length) :
    ∃ t t', runSteps n s = .next t ∧ runSteps n s' = .next t' ∧ t.SameFuture t' ∧ t.stim = s.stim.drop n ∧
      (1 ≤ n → t.rdata = t'.rdata) := by
  induction n with
  | zero => exact ⟨s, s', rfl, rfl, h, rfl, nofun⟩
  | succ n ih =>
    obtain ⟨u, u', hu, hu', hsame, hustim, -⟩ := ih (Nat.le_of_succ_le hlen)
    have hplaced : u.stim ≠ [] := by rwa [hustim, ne_eq, List.drop_eq_nil_iff, not_le]
    obtain ⟨t, t', ht, ht', hkept, htstim, hrdata⟩ := step_keeps_sameFuture hsame hplaced
    exact ⟨t, t', (runSteps_succ_of_runSteps hu).trans ht, (runSteps_succ_of_runSteps hu').trans ht', hkept,
      by rw [htstim, hustim, List.tail_drop], fun _ => hrdata⟩

/-- Settles O12: the reset cycle makes the two machines alike in all that later cycles read, and each of these keeps it. -/
theorem resetForgetsThePast : Obligations.ResetForgetsThePast := by
  intro s s' w ws n hparams hstim hstim' hrst hlen
  obtain ⟨u, u', hu, hu', hsame, hustim⟩ := step_sameFuture_of_reset hparams (hstim.trans hstim'.symm)
    (by rwa [s.word_of_stim w ws hstim]) (by rwa [s'.word_of_stim w ws hstim'])
  have hlen' : n ≤ u.stim.length := by rwa [hustim, hstim]
  obtain ⟨t, t', ht, ht', hend, -, hrdata⟩ := runSteps_keeps_sameFuture hsame hlen'
  refine ⟨t, t', ?_, ?_, hend.now, hend.nxt, hend.stim, hrdata⟩
  · rw [runSteps, hu]; exact ht
  · rw [runSteps, hu']; exact ht'

end Sys2Proof.Machine
